-- ==== Sys2Proof/Word.lean ====
section
/-! DEFINITION. The word types of the block: command words, bytes, operand fields. -/

namespace Sys2Proof

/-- A command word: 32 bits, the only length (R71). -/
abbrev Word := BitVec 32

/-- One byte of a frame (R54). -/
abbrev Byte := BitVec 8

/-- The duration field of a sample, `DUR`, `DUR_W = 24` bits, unsigned microseconds (R7, R72). -/
abbrev Dur := BitVec 24

/-- The consumer-number field `C`, 4 bits (R73). -/
abbrev ConsumerNo := BitVec 4

/-- The milliseconds field `MS` and the register `tmo_ms`, 28 bits (R33, R74). -/
abbrev Millis := BitVec 28

end Sys2Proof
end

