-- ==== Sys2Proof/Syntax.lean ====
section
/-! DEFINITION. The commands of the block, one constructor for each row of spec/opcode_table.json (R75). -/

namespace Sys2Proof

/-- A command (R75). The operands are the raw fields of the formats S, K, Z and T (R72 to R74). -/
inductive Instr where
  /-- SAMPLE, R100: one valid pulse of duration `dur` microseconds. -/
  | sample (dur : Dur)
  /-- TMO, R101: an invalid pulse sample. The word has a DUR field, which the meaning ignores (log 14). -/
  | tmo (dur : Dur)
  /-- COPY, R162: phase 1 of a two-phase consume by consumer `c`. -/
  | copy (c : ConsumerNo)
  /-- CLEAR, R163: phase 2 of a two-phase consume by consumer `c`. -/
  | clear (c : ConsumerNo)
  /-- TAKE, R164: the atomic consume by consumer `c`. -/
  | take (c : ConsumerNo)
  /-- START, R190. -/
  | start
  /-- STOP, R191. -/
  | stop
  /-- SET_TIMEOUT, R193: `ms` milliseconds. -/
  | setTimeout (ms : Millis)
deriving DecidableEq, Repr

end Sys2Proof
end

