-- ==== Sys2Proof/Decode.lean ====
section
/-! DEFINITION. The opcode map of R75 as rows of a match and a mask, the total decoder read from it, and
the encoder of the formats S, K, Z and T (R72 to R74). -/

namespace Sys2Proof

/-- One row of the opcode map: a word `w` is the row's command when `w & mask = pattern` (R75). -/
structure OpRow where
  mnemonic : String
  pattern : Word
  mask : Word
deriving DecidableEq, Repr

/-- `w & mask = match` (R75). -/
def OpRow.selects (r : OpRow) (w : Word) : Bool := (w &&& r.mask) == r.pattern

def rowSample : OpRow := ⟨"SAMPLE", 0x18000000#32, 0xFF000000#32⟩
def rowTmo : OpRow := ⟨"TMO", 0x10000000#32, 0xFF000000#32⟩
def rowCopy : OpRow := ⟨"COPY", 0x20000000#32, 0xFFFFFFF0#32⟩
def rowClear : OpRow := ⟨"CLEAR", 0x30000000#32, 0xFFFFFFF0#32⟩
def rowTake : OpRow := ⟨"TAKE", 0x40000000#32, 0xFFFFFFF0#32⟩
def rowStart : OpRow := ⟨"START", 0x80000000#32, 0xFFFFFFFF#32⟩
def rowStop : OpRow := ⟨"STOP", 0x90000000#32, 0xFFFFFFFF#32⟩
def rowSetTimeout : OpRow := ⟨"SET_TIMEOUT", 0xA0000000#32, 0xF0000000#32⟩

/-- The opcode map (R75). -/
def opcodeMap : List OpRow :=
  [rowSample, rowTmo, rowCopy, rowClear, rowTake, rowStart, rowStop, rowSetTimeout]

/-- `DUR = cmd[23:0]` (R72). -/
def fieldDur (w : Word) : Dur := w.extractLsb' 0 24

/-- `C = cmd[3:0]` (R73). -/
def fieldC (w : Word) : ConsumerNo := w.extractLsb' 0 4

/-- `MS = cmd[27:0]` (R74). -/
def fieldMs (w : Word) : Millis := w.extractLsb' 0 28

/-- The command a word is, or `none` for a reserved word (R75, R76). Total: every word is exactly one
command or reserved. -/
def decode (w : Word) : Option Instr :=
  if rowSample.selects w then some (.sample (fieldDur w))
  else if rowTmo.selects w then some (.tmo (fieldDur w))
  else if rowCopy.selects w then some (.copy (fieldC w))
  else if rowClear.selects w then some (.clear (fieldC w))
  else if rowTake.selects w then some (.take (fieldC w))
  else if rowStart.selects w then some .start
  else if rowStop.selects w then some .stop
  else if rowSetTimeout.selects w then some (.setTimeout (fieldMs w))
  else none

/-- The word of a command, put together from the fields of its format (R72 to R74): the operation and the
reserved zeros above, the operand below. -/
def encode : Instr → Word
  | .sample dur => 0b0001#4 ++ 1#1 ++ 0#3 ++ dur
  | .tmo dur => 0b0001#4 ++ 0#1 ++ 0#3 ++ dur
  | .copy c => 0b0010#4 ++ 0#24 ++ c
  | .clear c => 0b0011#4 ++ 0#24 ++ c
  | .take c => 0b0100#4 ++ 0#24 ++ c
  | .start => 0b1000#4 ++ 0#28
  | .stop => 0b1001#4 ++ 0#28
  | .setTimeout ms => 0b1010#4 ++ ms

/-- The row of the opcode map a command belongs to (R75). -/
def Instr.row : Instr → OpRow
  | .sample _ => rowSample
  | .tmo _ => rowTmo
  | .copy _ => rowCopy
  | .clear _ => rowClear
  | .take _ => rowTake
  | .start => rowStart
  | .stop => rowStop
  | .setTimeout _ => rowSetTimeout

/-- The decoder on a word given as the opcode table numbers its bits: bit 0 the least significant bit of
the one 32-bit word, the bits at and above `nbits` zero. -/
def decodeTableWord (nbits w : Nat) : Option Instr := decode (BitVec.ofNat 32 (w % 2 ^ nbits))

end Sys2Proof
end

