-- ==== Sys2Proof/Config.lean ====
section
/-! DEFINITION. What is fixed for the life of one block instance: the parameters of R7, the constants of
the frame format, and the one free value, the publish draw of R170. -/

namespace Sys2Proof

/-- `MAILBOX_MODE` (R7): which consume form the block has. -/
inductive MailboxMode where
  /-- COPY then CLEAR; the default. -/
  | twoPhase
  /-- TAKE. -/
  | atomicTake
deriving DecidableEq, Repr

/-- `CAP`: frame buffer capacity in bytes, fixed (R7). -/
abbrev frameCap : Nat := 15

/-- `L_MAX = CAP - 3`: the largest accepted payload length (R8). -/
abbrev lenMax : Nat := frameCap - 3

/-- Width of the field DUR of a command word, `cmd[23:0]` (R72): the most `DUR_W` can be (log 11). -/
abbrev durFieldWidth : Nat := 24

/-- The parameters of R7 that a model takes as arguments, and the model's own number of the instance. -/
structure Config where
  /-- `P_NOISE`: a valid sample shorter than this is noise. -/
  pNoise : Nat
  /-- `P_LOW`: lower bound of the half-bit band. -/
  pLow : Nat
  /-- `P_MID`: lower bound of the full-bit band, exclusive upper bound of the half-bit band. -/
  pMid : Nat
  /-- `P_HIGH`: exclusive upper bound of the full-bit band. -/
  pHigh : Nat
  /-- `P_SYNC`: the required value of frame byte 0. -/
  pSync : Byte
  /-- `P_POLY`: the reflected CRC-8 polynomial. -/
  pPoly : Byte
  /-- `P_CRC_INIT`: the CRC-8 initial value. -/
  pCrcInit : Byte
  /-- `P_LINE_MAX`: the host accepts a line id strictly between 0 and this. -/
  pLineMax : Nat
  /-- `DUR_W`: a duration of `2^DUR_W` microseconds or more is sent saturated (R79). -/
  durW : Nat
  /-- `N_CONSUMERS`: number of consumer ports. -/
  nConsumers : Nat
  /-- `MAILBOX_MODE`. -/
  mailboxMode : MailboxMode
  /-- `PUBLISH_CAN_FAIL`: a publish may be dropped. -/
  publishCanFail : Bool
  /-- `TIMEOUT_DEFAULT_MS`: power-on value of the timeout register. -/
  timeoutDefaultMs : Millis
  /-- Model: which instance this is (R199), so that each has publish draws of its own. DESIGN CHOICE (log 7);
  no parameter of R7, and nothing but the draw reads it. -/
  instanceNo : Nat
deriving DecidableEq, Repr

/-- The defaults of R7, normative for this hardware. The two OPEN parameters have no default there:
DESIGN CHOICE `N_CONSUMERS = 2` (log 3) and DESIGN CHOICE `TIMEOUT_DEFAULT_MS = 1` (log 4), both unsafe.
The instance is number 0, a DESIGN CHOICE (log 7). -/
def Config.standard : Config where
  pNoise := 20
  pLow := 200
  pMid := 750
  pHigh := 1300
  pSync := 0x9F#8
  pPoly := 0xE0#8
  pCrcInit := 0x00#8
  pLineMax := 41
  durW := 24
  nConsumers := 2
  mailboxMode := .twoPhase
  publishCanFail := false
  timeoutDefaultMs := 1#28
  instanceNo := 0

/-- `draw_publish_fails()` of R170, a free draw for each publish, under no law: nothing is known of it.
The arguments are the number of the instance and how many draws it made before (log 7). DESIGN CHOICE: the
draws of two instances of different numbers are unrelated, as R199 asks, and two blocks of one number make
the same draws. Safe: every sequence of draws of every instance is admitted. -/
opaque Config.freePublishFails : Nat → Nat → Bool

end Sys2Proof
end

