-- ==== Sys2Proof/Machine/State.lean ====
section
/-! DEFINITION. The state of one block instance (R20), what crosses its boundary (ports R70, responses
R77, events R213), the reasons a step can stop, and the power-on state (R39). -/

namespace Sys2Proof.Machine

/-- A byte array in canonical form: (index, byte) pairs, indices strictly rising, no pair whose byte is
what an unlisted index reads as (log 8). -/
abbrev Memory := List Host.Cell

/-- What an index that is not listed reads as: 0, the value every byte array has at power-on (R39). -/
abbrev Memory.unlisted : Byte := 0#8

/-- The canonical form of a 15-byte array: rising indices, all below `CAP`, no listed zero. -/
abbrev Memory.wf (m : Memory) : Prop :=
  m.Pairwise (fun x y => x.1 < y.1) ∧ ∀ x ∈ m, x.2 ≠ Memory.unlisted ∧ x.1 < frameCap

/-- The input ports (R70). -/
inductive Port where
  /-- The sample port, driven by the producer. -/
  | sample
  /-- The port of consumer `p`. -/
  | consumer (p : Nat)
  /-- The control port, driven by the host. -/
  | control
deriving DecidableEq, Repr

/-- A command as it is presented: the port it arrives on and its word (R70). -/
structure Presented where
  port : Port
  word : Word
deriving DecidableEq, Repr

/-- Response status codes (R77). -/
inductive Status where
  | ok
  | nodata
  | data
  | rejected
deriving DecidableEq, Repr

/-- The response of a command (R77): status, `len`, and the 15 data bytes. -/
structure Response where
  st : Status
  len : BitVec 4
  data : Memory
deriving DecidableEq, Repr

/-- The causes of a desync (R212). -/
inductive DesyncCause where
  /-- `DS_TIMEOUT`: an invalid sample. -/
  | timeout
  /-- `DS_DURATION`: a valid sample in no band. -/
  | duration
  /-- `DS_PARITY`: nine bits with odd parity. -/
  | parity
  /-- `DS_SYNC`: byte 0 is not `P_SYNC`. -/
  | sync
  /-- `DS_LENGTH`: payload length above `L_MAX`. -/
  | length
  /-- `DS_XOR`: XOR checksum mismatch. -/
  | xor
  /-- `DS_CRC`: CRC-8 mismatch. -/
  | crc
deriving DecidableEq, Repr

/-- The events of the trace (R213). -/
inductive Event where
  | reject
  | noise
  | half
  | bit0
  | bit1
  | synth
  | byte (index : BitVec 4) (value : Byte)
  | length (l : BitVec 5)
  | publish
  | publishDropped
  | exit
  | desync (cause : DesyncCause)
  | copy
  | nodata
  | clear
  | take
  | start
  | stopReq
  | tmoSet
  | tmoIgnored
deriving DecidableEq, Repr

/-- The register `run` (R32). The value 3, which is never written, has no constructor (log 10). -/
inductive RunState where
  | stopped
  | running
  | stopping
deriving DecidableEq, Repr

/-- The register `ph[c]` (R34). -/
inductive Phase where
  | idle
  | copied
deriving DecidableEq, Repr

/-- The registers of one consumer port: `ph[c]` (R34) and `cb[c]` (R35). -/
structure ConsumerPort where
  ph : Phase
  cb : Memory
deriving DecidableEq, Repr

/-- The state of one block instance (R20), its fixed configuration (log 2), and the model's own fields:
the commands presented and not yet taken (log 1), the port in execution (log 6), the last command's
response and events (log 5), and the count of publish draws (log 7). -/
structure State where
  /-- The parameters of R7. No step changes them. -/
  cfg : Config
  /-- `hb`, half_bit_pending (R23). -/
  hb : Bool
  /-- `bc`, bit_count (R24). -/
  bc : BitVec 4
  /-- `acc`, accumulator (R25). -/
  acc : BitVec 9
  /-- `bi`, byte_index (R26). -/
  bi : BitVec 4
  /-- `fb`, the frame being assembled (R27). -/
  fb : Memory
  /-- `elv`: expected_length is known (R28). -/
  elv : Bool
  /-- `el`: expected_length when `elv` (R28). -/
  el : BitVec 5
  /-- `mb.ready` (R30). -/
  mbReady : Bool
  /-- `mb.frame` (R31). -/
  mbFrame : Memory
  /-- `run` (R32). -/
  run : RunState
  /-- `tmo_ms` (R33). -/
  tmoMs : Millis
  /-- `ph[c]` and `cb[c]` (R34, R35). Entries at and above `N_CONSUMERS` are never read or written (log 15). -/
  consumers : Vector ConsumerPort 16
  /-- Model: the commands the environment presents, oldest first. -/
  inbox : List Presented
  /-- Model: the port the command in execution arrived on. -/
  port : Port
  /-- Model: the response of the last command, if any. -/
  resp : Option Response
  /-- Model: the events the last step emitted, in order. -/
  trace : List Event
  /-- Model: how many publish draws were made. -/
  drawCount : Nat
deriving DecidableEq, Repr

/-- Why the machine stops with a fault. The block itself has no fault (R210). -/
inductive Fault where
  /-- Raised by a commit (R131) whose write index is outside 0..14. R144 shows that no run from power-on
  reaches it. Safe: the model stops where the spec gives no effect (log 9). -/
  | frameIndexOutOfRange
deriving DecidableEq, Repr

/-- Why the machine has no meaning for an instruction. -/
inductive Refusal where
  /-- Raised by an arm of `exec` whose instruction has no meaning yet: none. Safe. -/
  | notModelled (mnemonic : String)
deriving DecidableEq, Repr

/-- The outcome of a step or of an operation that may stop. -/
abbrev Result := Host.Outcome State Fault Refusal

/-- A consumer port at power-on: IDLE, copy buffer 0 (R39). -/
def ConsumerPort.powerOn : ConsumerPort := ⟨.idle, []⟩

/-- The power-on state of a block with configuration `cfg` (R39, R240), no command presented. -/
def State.powerOn (cfg : Config) : State where
  cfg := cfg
  hb := false
  bc := 0#4
  acc := 0#9
  bi := 0#4
  fb := []
  elv := false
  el := 0#5
  mbReady := false
  mbFrame := []
  run := .stopped
  tmoMs := cfg.timeoutDefaultMs
  consumers := Vector.replicate 16 ConsumerPort.powerOn
  inbox := []
  port := .control
  resp := none
  trace := []
  drawCount := 0

/-- The machine right after reset: power-on with the defaults of R7 and the two values logs 3 and 4 name. -/
def State.reset : State := State.powerOn Config.standard

end Sys2Proof.Machine
end

