-- ==== Sys2Proof/Machine/Operands.lean ====
section
/-! DEFINITION. Operand forms: reading and writing the byte arrays (R10, R50 to R52), the three operand
fields (R78), the payload-length field (R134), the bit reversal of a received byte (R110), and the numeric
codes of everything that crosses the boundary (R32, R34, R77, R212, R213). -/

namespace Sys2Proof.Machine

/-! ### The byte arrays -/

/-- `MemRead(space, i, 1)` (R10): byte `i` of a byte array. -/
def Memory.read : Memory → Nat → Byte
  | [], _ => Memory.unlisted
  | (j, v) :: rest, i => if j = i then v else Memory.read rest i

/-- The array without a listed byte at `i`. -/
def Memory.erase (m : Memory) (i : Nat) : Memory := m.filter (fun x => x.1 != i)

/-- Lists byte `v` at `i`, before the first higher index. -/
def Memory.insertAt : Memory → Nat → Byte → Memory
  | [], i, v => [(i, v)]
  | (j, w) :: rest, i, v => if i < j then (i, v) :: (j, w) :: rest else (j, w) :: Memory.insertAt rest i v

/-- The array with byte `i` set to `v`, in canonical form. -/
def Memory.set (m : Memory) (i : Nat) (v : Byte) : Memory :=
  if v = Memory.unlisted then m.erase i else (m.erase i).insertAt i v

/-- `MemWrite(space, i, 1, v)` (R10): `none` where `i` is outside the array, indices 0..14 (R50). -/
def Memory.write (m : Memory) (i : Nat) (v : Byte) : Option Memory :=
  if i < frameCap then some (m.set i v) else none

/-- The 15 bytes in index order, byte 0 first (R55). -/
def Memory.bytes (m : Memory) : List Byte := (List.range frameCap).map m.read

/-- The array that holds `bs` from index `i` on, and 0 elsewhere. Bytes past index 14 are dropped. -/
def Memory.ofBytesFrom : Nat → List Byte → Memory
  | _, [] => []
  | i, b :: bs => if i < frameCap then (Memory.ofBytesFrom (i + 1) bs).set i b else []

/-- The array that holds `bs` from index 0 on, and 0 elsewhere. -/
def Memory.ofBytes (bs : List Byte) : Memory := Memory.ofBytesFrom 0 bs

/-! ### Fields -/

/-- `DUR`, zero-extended, in microseconds (R78). -/
def durMicros (dur : Dur) : Nat := dur.toNat

/-- `C`, zero-extended, as an index (R78). -/
def consumerIndex (c : ConsumerNo) : Nat := c.toNat

/-- `L = f[2][5:1]` (R134). -/
def payloadLen (f : Memory) : BitVec 5 := (f.read 2).extractLsb' 1 5

/-- Reverses the bits of each nibble: the first of the two steps of R110. -/
def reverseNibbles (d : Byte) : Byte :=
  BitVec.ofBool (d.getLsbD 4) ++ BitVec.ofBool (d.getLsbD 5) ++ BitVec.ofBool (d.getLsbD 6) ++ BitVec.ofBool (d.getLsbD 7)
    ++ BitVec.ofBool (d.getLsbD 0) ++ BitVec.ofBool (d.getLsbD 1) ++ BitVec.ofBool (d.getLsbD 2) ++ BitVec.ofBool (d.getLsbD 3)

/-- Swaps the nibbles: the second step of R110. -/
def swapNibbles (d : Byte) : Byte := d.extractLsb' 0 4 ++ d.extractLsb' 4 4

/-- `rev8(D)` (R110): "bit-reversed within each nibble and nibble-swapped". -/
def rev8 (d : Byte) : Byte := swapNibbles (reverseNibbles d)

/-! ### Responses -/

/-- OK, with `len` and `data` 0 (R77). -/
def Response.ok : Response := ⟨.ok, 0#4, []⟩

/-- NODATA, with `len` and `data` 0 (R77). -/
def Response.nodata : Response := ⟨.nodata, 0#4, []⟩

/-- REJECTED, with `len` and `data` 0 (R77). -/
def Response.rejected : Response := ⟨.rejected, 0#4, []⟩

/-- `len = f[2][5:1] + 1` in the 4-bit field (R166). Every frame the slot can hold has `L <= 12`; for a
longer one, which no run reaches, the sum keeps its low 4 bits (log 16). -/
def frameLen (f : Memory) : BitVec 4 := BitVec.ofNat 4 ((payloadLen f).toNat + 1)

/-- DATA with frame `f` (R77, R166). -/
def Response.ofFrame (f : Memory) : Response := ⟨.data, frameLen f, f⟩

/-! ### Codes -/

/-- Status codes (R77). -/
def Status.code : Status → BitVec 2
  | .ok => 0
  | .nodata => 1
  | .data => 2
  | .rejected => 3

/-- `resp` packed into 128 bits (R77): `st` in 1:0, `len` in 7:4, `data[i]` in `8*i+15 : 8*i+8`. -/
def Response.packed (r : Response) : BitVec 128 :=
  (List.range frameCap).foldl (fun x i => x ||| ((r.data.read i).setWidth 128 <<< (8 * i + 8)))
    (r.st.code.setWidth 128 ||| (r.len.setWidth 128 <<< 4))

/-- The encoding of `run` (R32). -/
def RunState.code : RunState → BitVec 2
  | .stopped => 0
  | .running => 1
  | .stopping => 2

/-- The encoding of `ph[c]` (R34). -/
def Phase.code : Phase → BitVec 1
  | .idle => 0
  | .copied => 1

/-- Desync cause codes (R212). -/
def DesyncCause.code : DesyncCause → Byte
  | .timeout => 0x10
  | .duration => 0x11
  | .parity => 0x12
  | .sync => 0x13
  | .length => 0x14
  | .xor => 0x15
  | .crc => 0x16

/-- Event codes (R213); the code of a desync is its cause. -/
def Event.code : Event → Byte
  | .reject => 0x00
  | .noise => 0x01
  | .half => 0x02
  | .bit0 => 0x03
  | .bit1 => 0x04
  | .synth => 0x05
  | .byte _ _ => 0x06
  | .length _ => 0x07
  | .publish => 0x08
  | .publishDropped => 0x09
  | .exit => 0x0A
  | .desync cause => cause.code
  | .copy => 0x20
  | .nodata => 0x21
  | .clear => 0x22
  | .take => 0x23
  | .start => 0x30
  | .stopReq => 0x31
  | .tmoSet => 0x32
  | .tmoIgnored => 0x33

end Sys2Proof.Machine
end

