-- ==== Sys2Proof/Machine/Flags.lean ====
section
/-! DEFINITION. The parity, checksums and combinational signals of the block: parity8 (R10), xor8 (R137),
crc8 (R138), final_byte (R29). The two status flags `hb` and `mb.ready` (R36) are fields of State, written
by the operations of Ops and the meanings. -/

namespace Sys2Proof.Machine

/-- `parity8(v) = v[7] ^ v[6] ^ ... ^ v[0]` (R10). -/
def parity8 (v : Byte) : Bool :=
  v.getLsbD 7 ^^ v.getLsbD 6 ^^ v.getLsbD 5 ^^ v.getLsbD 4 ^^ v.getLsbD 3 ^^ v.getLsbD 2 ^^ v.getLsbD 1 ^^ v.getLsbD 0

/-- The indices `a .. b`, none when `b < a`. -/
def indices (a b : Nat) : List Nat := List.range' a (b + 1 - a)

/-- The bytes `f[a], ..., f[b]`, none when `b < a`. -/
def slice (f : Memory) (a b : Nat) : List Byte := (indices a b).map f.read

/-- XOR of a list of bytes, 0 for the empty list (R137). -/
def xorOf (bs : List Byte) : Byte := bs.foldl (· ^^^ ·) 0#8

/-- `xor8(a..b)` (R137). -/
def xor8 (f : Memory) (a b : Nat) : Byte := xorOf (slice f a b)

/-- One bit of the CRC (R138): `mix`, the shift of `c`, and the polynomial. -/
def crcBit (poly c x : Byte) : Byte :=
  if (c ^^^ x).getLsbD 0 then (c >>> 1) ^^^ poly else c >>> 1

/-- The low `k` bits of `x` taken into the CRC register `c`, low bit first (R138). -/
def crcBits (poly : Byte) : Nat → Byte → Byte → Byte
  | 0, c, _ => c
  | k + 1, c, x => crcBits poly k (crcBit poly c x) (x >>> 1)

/-- The register after the bytes `bs` (R138): no final XOR, no final reversal. -/
def crcOf (poly init : Byte) (bs : List Byte) : Byte := bs.foldl (crcBits poly 8) init

/-- `crc8(a..b)` over `f`, with the parameters `P_POLY` and `P_CRC_INIT` (R138). -/
def crc8 (cfg : Config) (f : Memory) (a b : Nat) : Byte := crcOf cfg.pPoly cfg.pCrcInit (slice f a b)

/-- `final_byte = (elv = 1) and (bi = el + 2)` (R29). -/
def finalByte (s : State) : Bool := s.elv && (s.bi.toNat == s.el.toNat + 2)

/-- The status output `stopped` (R194). -/
def stoppedOutput (s : State) : Bool := s.run == .stopped

/-- The status output `tmo_ms` (R194). -/
def timeoutOutput (s : State) : Millis := s.tmoMs

end Sys2Proof.Machine
end

