-- ==== Sys2Proof/Machine/Ops.lean ====
section
/-! DEFINITION. The shared operations over the registers: what a step emits and answers (R10), rejection
(R76, R217), the resets (R111, R141, R241), the desync, which is the block's exception mechanism (R141,
R219), the worker's exit (R192), the consumer registers (R34, R35), and how a presented command is taken. -/

namespace Sys2Proof.Machine

/-- `emit(ev)` (R10, R213). -/
def State.emit (s : State) (e : Event) : State := { s with trace := s.trace ++ [e] }

/-- `respond(s)` (R10, R77). -/
def State.respond (s : State) (r : Response) : State := { s with resp := some r }

/-- A REJECTED command (R76): the response and `EV_REJECT`, no register changes. -/
def State.reject (s : State) : State := (s.respond Response.rejected).emit .reject

/-- `demod_reset()` (R111). -/
def State.demodReset (s : State) : State := { s with hb := false, bc := 0#4, acc := 0#9 }

/-- `da_reset()` (R141). -/
def State.daReset (s : State) : State :=
  { s.demodReset with bi := 0#4, fb := [], elv := false, el := 0#5 }

/-- `raise Desync(cause)` (R141), the block's trap analogue: no cause register, no return point, no
handler (R219, R220). The caller ends the step with it. -/
def State.desync (s : State) (cause : DesyncCause) : State := (s.emit (.desync cause)).daReset

/-- `mb.ready <- 0; mb.frame <- 0^15` (R163, R164, R190, R192). -/
def State.clearMailbox (s : State) : State := { s with mbReady := false, mbFrame := [] }

/-- `worker_exit()` (R192). -/
def State.workerExit (s : State) : State :=
  ({ s.daReset.clearMailbox with run := .stopped }).emit .exit

/-- The registers of consumer port `c` (R34, R35). -/
def State.consumer (s : State) (c : ConsumerNo) : ConsumerPort := s.consumers[c.toNat]'c.isLt

/-- Writes the registers of consumer port `c`. -/
def State.setConsumer (s : State) (c : ConsumerNo) (k : ConsumerPort) : State :=
  { s with consumers := s.consumers.set c.toNat k c.isLt }

/-- The command arrived on consumer `c`'s own port, and the port exists: `c < N_CONSUMERS` and `c = p`
(R162 to R164, R217). -/
def State.onConsumerPort (s : State) (c : ConsumerNo) : Bool :=
  decide (consumerIndex c < s.cfg.nConsumers) && decide (s.port = .consumer (consumerIndex c))

/-- The port each command is legal on (R70). -/
def legalPort : Instr → Port
  | .sample _ => .sample
  | .tmo _ => .sample
  | .copy c => .consumer (consumerIndex c)
  | .clear c => .consumer (consumerIndex c)
  | .take c => .consumer (consumerIndex c)
  | .start => .control
  | .stop => .control
  | .setTimeout _ => .control

/-- Takes command `p` from the head of the inbox: `rest` stays, the port is noted, the response and trace
of the last command make way. -/
def State.accept (s : State) (p : Presented) (rest : List Presented) : State :=
  { s with inbox := rest, port := p.port, resp := none, trace := [] }

/-- The command a presented word is (R75, R76). -/
def fetch (p : Presented) : Option Instr := decode p.word

/-- The port `withFetchWord` presents a word on: the one its command is legal on; the control port for a
reserved word, which is REJECTED on every port (log 6). -/
def portFor (w : Word) : Port :=
  match decode w with
  | some i => legalPort i
  | none => .control

/-- The environment presents one more command, after those already presented (R70, R218). -/
def State.present (s : State) (p : Presented) : State := { s with inbox := s.inbox ++ [p] }

/-- Goes on with `k` from a next state; a fault or a refusal ends it. -/
def andThen (r : Result) (k : State → Result) : Result :=
  match r with
  | .next s => k s
  | .fault e => .fault e
  | .refused e => .refused e

end Sys2Proof.Machine
end

