-- ==== Sys2Proof/Machine/Control.lean ====
section
/-! DEFINITION. The control-port commands START (R190), STOP (R191) and SET_TIMEOUT (R193). -/

namespace Sys2Proof.Machine

/-- START (R190). -/
def execStart (s : State) : Result :=
  if s.port ≠ .control ∨ s.run ≠ .stopped then .next s.reject
  else .next ((({ s.daReset.clearMailbox with run := .running }).respond Response.ok).emit .start)

/-- STOP (R191): sets the termination flag; the worker's exit does the rest (R192). -/
def execStop (s : State) : Result :=
  if s.port ≠ .control ∨ s.run ≠ .running then .next s.reject
  else .next ((({ s with run := .stopping }).respond Response.ok).emit .stopReq)

/-- SET_TIMEOUT (R193), accepted in every `run` state. -/
def execSetTimeout (ms : Millis) (s : State) : Result :=
  if s.port ≠ .control then .next s.reject
  else if ms = 0#28 then .next ((s.respond Response.ok).emit .tmoIgnored)
  else .next ((({ s with tmoMs := ms }).respond Response.ok).emit .tmoSet)

end Sys2Proof.Machine
end

