-- ==== Sys2Proof/Machine/Mailbox.lean ====
section
/-! DEFINITION. The frame mailbox: PUBLISH (R160, R170) and the consumer commands COPY (R162), CLEAR (R163)
and TAKE (R164). -/

namespace Sys2Proof.Machine

/-- The publish that succeeds: all 15 bytes, then `mb.ready` (R160). -/
def deliver (f : Memory) (s : State) : State :=
  ({ s with mbFrame := f, mbReady := true }).emit .publish

/-- The free draw of R170, which also counts it. It is the draw of this instance alone (R199, log 7). -/
def drawPublishFails (s : State) : Bool × State :=
  (Config.freePublishFails s.cfg.instanceNo s.drawCount, { s with drawCount := s.drawCount + 1 })

/-- `publish(f)` (R160). A draw is made only when `PUBLISH_CAN_FAIL`; a failed publish changes no mailbox
register (R170). -/
def publish (f : Memory) (s : State) : State :=
  if s.cfg.publishCanFail then
    let d := drawPublishFails s
    if d.1 then d.2.emit .publishDropped else deliver f d.2
  else deliver f s

/-- COPY (R162): phase 1 of a two-phase consume. -/
def execCopy (c : ConsumerNo) (s : State) : Result :=
  if s.cfg.mailboxMode ≠ .twoPhase ∨ s.onConsumerPort c = false ∨ (s.consumer c).ph = .copied then
    .next s.reject
  else if s.mbReady = false then
    .next ((s.respond Response.nodata).emit .nodata)
  else
    .next (((s.setConsumer c ⟨.copied, s.mbFrame⟩).respond Response.ok).emit .copy)

/-- CLEAR (R163): phase 2 of a two-phase consume. It empties whatever the slot holds and returns the copy;
the copy buffer keeps its bytes (R35). -/
def execClear (c : ConsumerNo) (s : State) : Result :=
  if s.cfg.mailboxMode ≠ .twoPhase ∨ s.onConsumerPort c = false ∨ (s.consumer c).ph = .idle then
    .next s.reject
  else
    .next (((s.clearMailbox.setConsumer c ⟨.idle, (s.consumer c).cb⟩).respond
      (Response.ofFrame (s.consumer c).cb)).emit .clear)

/-- TAKE (R164): the atomic consume. -/
def execTake (c : ConsumerNo) (s : State) : Result :=
  if s.cfg.mailboxMode ≠ .atomicTake ∨ s.onConsumerPort c = false then
    .next s.reject
  else if s.mbReady = false then
    .next ((s.respond Response.nodata).emit .nodata)
  else
    .next ((s.clearMailbox.respond (Response.ofFrame s.mbFrame)).emit .take)

end Sys2Proof.Machine
end

