-- ==== Sys2Proof/Machine/Assembler.lean ====
section
/-! DEFINITION. The frame assembler, sync monitor and checksum validator: the commit of a byte (R130) and
everything it runs. -/

namespace Sys2Proof.Machine

/-- `frame_complete()` (R140): publish, then reset, whatever the publish's outcome. -/
def frameComplete (s : State) : State := (publish s.fb s).daReset

/-- `elv <- 1; el <- L`, with `EV_LENGTH` when `elv` goes from 0 to 1 (R130, R134). -/
def setLength (l : BitVec 5) (s : State) : State :=
  { (if s.elv then s else s.emit (.length l)) with elv := true, el := l }

/-- The checks that need the payload length `L` (R134), on a state with `bi > 2`: length (R135), XOR
(R136), CRC and completion (R139, R140), in that order (R216). -/
def checkLength (s : State) : State :=
  let l := payloadLen s.fb
  let n := l.toNat
  if lenMax < n then s.desync .length
  else
    let t := setLength l s
    if n + 1 < t.bi.toNat ∧ xor8 t.fb 1 n ≠ t.fb.read (n + 1) then t.desync .xor
    else if n + 2 < t.bi.toNat then
      if crc8 t.cfg t.fb 1 (n + 1) ≠ t.fb.read (n + 2) then t.desync .crc else frameComplete t
    else t

/-- The checks of a commit after its write (R130): the sync monitor (R132), then, from byte 2 on, those
that need the length (R133). -/
def checkCommit (s : State) : State :=
  if s.bi = 1#4 ∧ s.fb.read 0 ≠ s.cfg.pSync then s.desync .sync
  else if 2 < s.bi.toNat then checkLength s
  else s

/-- `commit(B)` (R130): the byte write (R131), then the checks. -/
def commit (b : Byte) (s : State) : Result :=
  match s.fb.write s.bi.toNat b with
  | some fb => .next (checkCommit { s with fb := fb, bi := s.bi + 1#4 })
  | none => .fault .frameIndexOutOfRange

end Sys2Proof.Machine
end

