-- ==== Sys2Proof/Machine/Demodulator.lean ====
section
/-! DEFINITION. The bit demodulator and its two commands SAMPLE (R100) and TMO (R101). -/

namespace Sys2Proof.Machine

/-- The outcomes of `classify` (R102). -/
inductive PulseClass where
  | noise
  | full
  | half
  | bad
deriving DecidableEq, Repr

/-- `classify(valid, d)` (R102), tested in this order. -/
def classify (cfg : Config) (valid : Bool) (dur : Dur) : PulseClass :=
  if valid = false then .bad
  else if durMicros dur < cfg.pNoise then .noise
  else if cfg.pMid ≤ durMicros dur ∧ durMicros dur < cfg.pHigh then .full
  else if cfg.pLow ≤ durMicros dur ∧ durMicros dur < cfg.pMid then .half
  else .bad

/-- `acc <- ((acc << 1) | b) mod 2^9` (R25). -/
def shiftIn (acc : BitVec 9) (b : Bool) : BitVec 9 := (acc <<< 1) ||| (BitVec.ofBool b).setWidth 9

/-- The first two lines of `push_bit(b)` (R107) and its event. -/
def appendBit (b : Bool) (s : State) : State :=
  ({ s with acc := shiftIn s.acc b, bc := s.bc + 1#4 }).emit (if b then .bit1 else .bit0)

/-- `synth_parity()` (R108). -/
def synthParity (s : State) : State :=
  ({ s with acc := shiftIn s.acc (parity8 (s.acc.extractLsb' 0 8)), bc := 9#4 }).emit .synth

/-- `complete_byte()` (R109): parity check, byte conversion, demodulator reset, commit. -/
def completeByte (s : State) : Result :=
  let d := s.acc.extractLsb' 1 8
  if parity8 d ≠ s.acc.getLsbD 0 then .next (s.desync .parity)
  else commit (rev8 d) (s.demodReset.emit (.byte s.bi (rev8 d)))

/-- The two tests that end `push_bit` (R107): parity synthesis for the last byte, then completion. -/
def finishBit (s : State) : Result :=
  let t := if s.bc = 8#4 ∧ finalByte s = true then synthParity s else s
  if t.bc = 9#4 then completeByte t else .next t

/-- `push_bit(b)` (R107). -/
def pushBit (b : Bool) (s : State) : Result := finishBit (appendBit b s)

/-- `full_bit()` (R104). -/
def fullBit (s : State) : Result := pushBit true { s with hb := false }

/-- `half_bit()` (R105). -/
def halfBit (s : State) : Result :=
  if s.hb then pushBit false { s with hb := false } else .next (({ s with hb := true }).emit .half)

/-- What one pulse sample does while RUNNING (R100, R101): `noise()` changes no register (R103), a BAD
sample desynchronises with `cause` (R106). -/
def pulse (cause : DesyncCause) (k : PulseClass) (s : State) : Result :=
  match k with
  | .noise => .next (s.emit .noise)
  | .full => fullBit s
  | .half => halfBit s
  | .bad => .next (s.desync cause)

/-- A pulse sample on the sample port, as SAMPLE and TMO share it (R100, R101, R215): REJECTED on another
port or while STOPPED, the worker's exit while STOPPING, the pulse while RUNNING. -/
def samplePort (cause : DesyncCause) (k : PulseClass) (s : State) : Result :=
  if s.port ≠ .sample then .next s.reject
  else match s.run with
    | .stopped => .next s.reject
    | .stopping => .next (s.respond Response.ok).workerExit
    | .running => pulse cause k (s.respond Response.ok)

/-- SAMPLE (R100). -/
def execSample (dur : Dur) (s : State) : Result := samplePort .duration (classify s.cfg true dur) s

/-- TMO (R101): an invalid sample, so BAD whatever DUR holds. -/
def execTmo (dur : Dur) (s : State) : Result := samplePort .timeout (classify s.cfg false dur) s

end Sys2Proof.Machine
end

