-- ==== Sys2Proof/Machine/Dispatch.lean ====
section
/-! DEFINITION. One arm for each command: the command is executed by its own meaning. -/

namespace Sys2Proof.Machine

def exec (i : Instr) (s : State) : Host.Outcome State Fault Refusal :=
  match i with
  | .sample dur => Sys2Proof.Machine.execSample dur s
  | .tmo dur => Sys2Proof.Machine.execTmo dur s
  | .copy c => Sys2Proof.Machine.execCopy c s
  | .clear c => Sys2Proof.Machine.execClear c s
  | .take c => Sys2Proof.Machine.execTake c s
  | .start => Sys2Proof.Machine.execStart s
  | .stop => Sys2Proof.Machine.execStop s
  | .setTimeout ms => Sys2Proof.Machine.execSetTimeout ms s

end Sys2Proof.Machine
end

