-- ==== Sys2Proof/Machine/Step.lean ====
section
/-! DEFINITION. One step: the oldest command presented is taken and executed (R11, R70, R218). -/

namespace Sys2Proof.Machine

/-- One step. A reserved word is REJECTED (R76). With no command presented the block waits: nothing
changes (R242, log 1). -/
def step (s : State) : Host.Outcome State Fault Refusal :=
  match s.inbox with
  | [] => .next s
  | p :: rest =>
    match fetch p with
    | some i => exec i (s.accept p rest)
    | none => .next (s.accept p rest).reject

/-- `s` with the command word `w` presented first, on the port its command is legal on (log 6). -/
def State.withFetchWord (s : State) (nbits w : Nat) : State :=
  let word := BitVec.ofNat 32 (w % 2 ^ nbits)
  { s with inbox := ⟨portFor word, word⟩ :: s.inbox }

end Sys2Proof.Machine
end

