-- ==== Sys2Proof/Machine/OnAir.lean ====
section
/-! DEFINITION. The symbol encoding on the air (R80 to R83), the assembly text of a command (R84), and the
pseudo-instructions (R85), as lists of commands. -/

namespace Sys2Proof.Machine

/-- A full-bit pulse of the canonical duration, 1000 microseconds (R80). -/
def fullPulse : Instr := .sample 1000#24

/-- A half-bit pulse of the canonical duration, 400 microseconds (R80). -/
def halfPulse : Instr := .sample 400#24

/-- The samples of one logical bit (R80): `ONE` is one full pulse, `ZERO` two half pulses (R85). -/
def bitPulses (b : Bool) : List Instr := if b then [fullPulse] else [halfPulse, halfPulse]

/-- `NOISE` (R85). -/
def noisePulse : Instr := .sample 10#24

/-- The eight data bits of a byte in the order sent, `B[0]` first (R81, R82). -/
def dataBits (b : Byte) : List Bool := (List.range 8).map b.getLsbD

/-- The nine bits of a byte sent with parity (R81). -/
def parityBits (b : Byte) : List Bool := dataBits b ++ [parity8 b]

/-- The samples of a list of logical bits. -/
def pulsesOf (bits : List Bool) : List Instr := bits.flatMap bitPulses

/-- `BYTE B` (R85): eight data bits and the parity bit. -/
def bytePulses (b : Byte) : List Instr := pulsesOf (parityBits b)

/-- `LASTBYTE B` (R85): eight data bits, no parity. -/
def lastBytePulses (b : Byte) : List Instr := pulsesOf (dataBits b)

/-- The XOR byte and the CRC byte of a payload (R85). -/
def frameXor (payload : List Byte) : Byte := xorOf payload
def frameCrc (cfg : Config) (payload : List Byte) : Byte :=
  crcOf cfg.pPoly cfg.pCrcInit (payload ++ [frameXor payload])

/-- The bytes of the frame with payload `p1, .., pL` (R54, R85): sync, payload, XOR, CRC. -/
def frameBytes (cfg : Config) (payload : List Byte) : List Byte :=
  cfg.pSync :: (payload ++ [frameXor payload, frameCrc cfg payload])

/-- `FRAME p1, .., pL` is valid only if bits 5:1 of the byte at index 2 of the result equal `L` (R85), and
a frame holds at most 15 bytes (R54). -/
abbrev framePayloadOk (cfg : Config) (payload : List Byte) : Prop :=
  payload.length ≤ lenMax ∧ (payloadLen (Memory.ofBytes (frameBytes cfg payload))).toNat = payload.length

/-- `FRAME p1, .., pL` (R83, R85): every byte with parity, but for the CRC byte, which is sent without when
`L >= 1` (R82). -/
def framePulses (cfg : Config) (payload : List Byte) : List Instr :=
  bytePulses cfg.pSync ++ payload.flatMap bytePulses ++ bytePulses (frameXor payload) ++
    (if payload.length = 0 then bytePulses (frameCrc cfg payload) else lastBytePulses (frameCrc cfg payload))

/-- Executes commands one after another on the port in execution. -/
def execAll : List Instr → State → Result
  | [], s => .next s
  | i :: is, s => andThen (exec i s) (execAll is)

/-- The mnemonic of a command (R84). -/
def mnemonicOf (i : Instr) : String := i.row.mnemonic

/-- The port prefix of a line of assembly (R84), implied by the mnemonic. -/
def portPrefix : Port → String
  | .sample => "P:"
  | .consumer p => "K" ++ toString p ++ ":"
  | .control => "H:"

/-- The assembly text of a command (R84), numbers decimal. -/
def assemblyText (i : Instr) : String :=
  match i with
  | .sample dur => "SAMPLE " ++ toString (durMicros dur)
  | .tmo _ => "TMO"
  | .copy c => "COPY " ++ toString (consumerIndex c)
  | .clear c => "CLEAR " ++ toString (consumerIndex c)
  | .take c => "TAKE " ++ toString (consumerIndex c)
  | .start => "START"
  | .stop => "STOP"
  | .setTimeout ms => "SET_TIMEOUT " ++ toString ms.toNat

end Sys2Proof.Machine
end

