-- ==== Sys2Proof/Machine/HostContract.lean ====
section
/-! DEFINITION. What lies outside the block and drives its ports, as the spec's contracts give it: the
edge-timing adapter (R79, R195, R253), the consumers' `getDecodedData` (R165), and the host operations
`start`, `stop`, `set_timeout` (R196 to R198). None of it is part of `step` (log 13). -/

namespace Sys2Proof.Machine

/-- One command issued on a port: presented before everything else, and executed. -/
def issue (p : Presented) (s : State) : Result := step { s with inbox := p :: s.inbox }

/-- Commands issued one after another (R59: one total order of steps). -/
def issueAll : List Presented → State → Result
  | [], s => .next s
  | p :: ps, s => andThen (issue p s) (issueAll ps)

/-- A command on the port it is legal on. -/
def presented (i : Instr) : Presented := ⟨legalPort i, encode i⟩

/-- The command was REJECTED. -/
def State.wasRejected (s : State) : Bool :=
  match s.resp with
  | some r => r.st == .rejected
  | none => false

/-- The edge-timing adapter (R79, R195): one sample for each return of `next_edge`, a duration of
`2^DUR_W` microseconds or more sent as `2^DUR_W - 1`. -/
def adapterSample (cfg : Config) (valid : Bool) (micros : Nat) : Instr :=
  if valid then .sample (BitVec.ofNat 24 (min micros (2 ^ cfg.durW - 1))) else .tmo 0#24

/-- `getDecodedData()` of consumer `c` (R165). With `TWO_PHASE`, COPY, and only if its response is OK,
CLEAR; `gap` is what other agents do in between (R61). With `ATOMIC_TAKE`, TAKE. The result is the
response of the last command. -/
def getDecodedData (c : ConsumerNo) (gap : List Presented) (s : State) : Result :=
  match s.cfg.mailboxMode with
  | .atomicTake => issue (presented (.take c)) s
  | .twoPhase =>
    andThen (issue (presented (.copy c)) s) (fun t =>
      if t.resp = some Response.ok then
        andThen (issueAll gap t) (issue (presented (.clear c)))
      else .next t)

/-- The error classes (R211). The host's operations fail with `configError`, `ioError` or
`concurrencyError`; `timeout` and `protocolDesync` are fatal to nothing and surface to no caller. -/
inductive ErrorClass where
  | configError
  | ioError
  | timeout
  | protocolDesync
  | concurrencyError
deriving DecidableEq, Repr

/-- The class of a desync (R211). -/
def errorClassOf : DesyncCause → ErrorClass
  | .timeout => .timeout
  | .duration => .protocolDesync
  | .parity => .protocolDesync
  | .sync => .protocolDesync
  | .length => .protocolDesync
  | .xor => .protocolDesync
  | .crc => .protocolDesync

/-- What the host does to its collaborators and to the block (R196, R197). -/
inductive HostAction where
  | enableLine (line : Nat)
  | disableLine (line : Nat)
  | createWorker
  | command (i : Instr)
deriving DecidableEq, Repr

/-- What the collaborators answer: inputs of the host operations, free. -/
structure Collaborators where
  enableOk : Bool
  spawnOk : Bool
  disableOk : Bool
deriving DecidableEq, Repr

/-- What a host operation did, the error it fails with, if any, and the block after it. -/
structure HostReply where
  actions : List HostAction
  error : Option ErrorClass
  after : State
deriving DecidableEq, Repr

/-- The block after a result, `s` where it stopped. -/
def afterOr (s : State) : Result → State
  | .next t => t
  | .fault _ => s
  | .refused _ => s

/-- Host `start(line)` (R196), in its order: the line check, the line enable, the worker, START. Nothing
more is done when START is REJECTED (log 13). -/
def hostStart (line : Nat) (w : Collaborators) (s : State) : HostReply :=
  if ¬ (0 < line ∧ line < s.cfg.pLineMax) then ⟨[], some .configError, s⟩
  else if w.enableOk = false then ⟨[.enableLine line], some .ioError, s⟩
  else if w.spawnOk = false then
    ⟨[.enableLine line, .createWorker, .disableLine line], some .concurrencyError, s⟩
  else
    let t := afterOr s (issue (presented .start) s)
    ⟨[.enableLine line, .createWorker, .command .start],
      if t.wasRejected then some .concurrencyError else none, t⟩

/-- The part of host `stop(line)` (R197) up to its wait: STOP, and `ConcurrencyError` if it is REJECTED. -/
def hostStopRequest (s : State) : HostReply :=
  let t := afterOr s (issue (presented .stop) s)
  ⟨[.command .stop], if t.wasRejected then some .concurrencyError else none, t⟩

/-- The part of host `stop(line)` (R197) from its wait on, once STOP was accepted: `none` while `stopped = 0`, then the line is disabled. -/
def hostStopFinish (line : Nat) (w : Collaborators) (s : State) : Option HostReply :=
  if stoppedOutput s then
    some ⟨[.disableLine line], if w.disableOk then none else some .ioError, s⟩
  else none

/-- Host `stop(line)` (R197). STOP; if it is REJECTED, `ConcurrencyError` and nothing is touched; otherwise
the wait, in which other agents issue `wait`, and the line disable. `none` where the host is still waiting
when `wait` is done, `stopped = 0`. -/
def hostStop (line : Nat) (wait : List Presented) (w : Collaborators) (s : State) : Option HostReply :=
  let r := hostStopRequest s
  match r.error with
  | some _ => some r
  | none =>
    (hostStopFinish line w (afterOr r.after (issueAll wait r.after))).map
      (fun f => { f with actions := r.actions ++ f.actions })

/-- Host `set_timeout(ms)` (R198): what it issues. Nothing for `ms <= 0`, else `min(ms, 2^28 - 1)`. -/
def hostSetTimeout (ms : Int) : Option Instr :=
  if ms ≤ 0 then none else some (.setTimeout (BitVec.ofNat 28 (min ms.toNat (2 ^ 28 - 1))))

end Sys2Proof.Machine
end

