-- ==== Sys2Proof/WellFormed.lean ====
section
/-! DEFINITION. The checks on configurations (R7) and on commands (R73). -/

namespace Sys2Proof

/-- The order R7 asks of the thresholds: `0 <= P_NOISE <= P_LOW <= P_MID <= P_HIGH < 2^DUR_W`. -/
abbrev Config.thresholdsOrdered (cfg : Config) : Prop :=
  cfg.pNoise ≤ cfg.pLow ∧ cfg.pLow ≤ cfg.pMid ∧ cfg.pMid ≤ cfg.pHigh ∧ cfg.pHigh < 2 ^ cfg.durW

/-- A legal configuration: ordered thresholds and `1 <= N_CONSUMERS <= 16` (R7), a duration
width that the field DUR holds (R72, log 11), a default timeout of at
least one millisecond (the summary table of spec/92_eei_decisions.md). -/
abbrev Config.wf (cfg : Config) : Prop :=
  cfg.thresholdsOrdered ∧ cfg.durW ≤ durFieldWidth ∧ 1 ≤ cfg.nConsumers ∧ cfg.nConsumers ≤ 16 ∧ cfg.timeoutDefaultMs ≠ 0#28

/-- A command is well-formed for a block with `n` consumer ports when its consumer number, if it has one,
names one of them (R73: `C < N_CONSUMERS`). Every other operand fills its field, so every value of it is
well-formed (R72, R74). -/
def Instr.wf (n : Nat) : Instr → Bool
  | .sample _ => true
  | .tmo _ => true
  | .copy c => decide (c.toNat < n)
  | .clear c => decide (c.toNat < n)
  | .take c => decide (c.toNat < n)
  | .start => true
  | .stop => true
  | .setTimeout _ => true

end Sys2Proof
end

