-- ==== Sys2Proof/Safety.lean ====
section
/-! DEFINITION. What counts as a good state and a good frame, in the terms the statements use: valid frames
(R140), the invariants of states held between steps (R38), when a command is accepted (R217). -/

namespace Sys2Proof.Machine

/-- A valid frame (R140): sync byte, length at most `L_MAX`, both checksums, zeros after the CRC byte. -/
abbrev FrameValid (cfg : Config) (f : Memory) : Prop :=
  f.read 0 = cfg.pSync ∧
  (payloadLen f).toNat ≤ lenMax ∧
  xor8 f 1 (payloadLen f).toNat = f.read ((payloadLen f).toNat + 1) ∧
  crc8 cfg f 1 ((payloadLen f).toNat + 1) = f.read ((payloadLen f).toNat + 2) ∧
  ∀ i < frameCap, (payloadLen f).toNat + 2 < i → f.read i = 0#8

/-- Clauses (1) and (2) of R38: the demodulator between steps. -/
abbrev State.demodOk (s : State) : Prop :=
  s.bc.toNat ≤ 8 ∧ (finalByte s = true → s.bc.toNat ≤ 7) ∧ s.acc.toNat < 2 ^ s.bc.toNat

/-- Clauses (3) to (6) of R38: the assembler between steps. -/
abbrev State.assemblerOk (s : State) : Prop :=
  s.bi.toNat ≤ 14 ∧
  (s.elv = true ↔ 3 ≤ s.bi.toNat) ∧
  (s.elv = true → s.el = payloadLen s.fb ∧ s.el.toNat ≤ lenMax ∧ s.bi.toNat ≤ s.el.toNat + 2) ∧
  (∀ i < frameCap, s.bi.toNat ≤ i → s.fb.read i = 0#8) ∧
  (1 ≤ s.bi.toNat → s.fb.read 0 = s.cfg.pSync)

/-- Clauses (7) and (8) of R38: the mailbox between steps. -/
abbrev State.mailboxOk (s : State) : Prop :=
  (s.mbReady = false → ∀ i < frameCap, s.mbFrame.read i = 0#8) ∧
  (s.mbReady = true → FrameValid s.cfg s.mbFrame)

/-- The demodulator and assembler hold their reset values (R141). -/
abbrev State.decoderReset (s : State) : Prop :=
  s.hb = false ∧ s.bc = 0#4 ∧ s.acc = 0#9 ∧ s.bi = 0#4 ∧ s.fb = [] ∧ s.elv = false ∧ s.el = 0#5

/-- The demodulator, assembler and mailbox hold their power-on values (R39). -/
abbrev State.decoderAtPowerOn (s : State) : Prop :=
  s.decoderReset ∧ s.mbReady = false ∧ s.mbFrame = []

/-- The consumer registers between steps: IDLE when `ATOMIC_TAKE` (R34), and a copy taken is a valid frame
(R35, R38). -/
abbrev State.consumersOk (s : State) : Prop :=
  ∀ c : ConsumerNo, (s.cfg.mailboxMode = .atomicTake → (s.consumer c).ph = .idle) ∧
    ((s.consumer c).ph = .copied → FrameValid s.cfg (s.consumer c).cb)

/-- Every byte array is in canonical form (log 8). -/
abbrev State.arraysWf (s : State) : Prop :=
  s.fb.wf ∧ s.mbFrame.wf ∧ ∀ c : ConsumerNo, (s.consumer c).cb.wf

/-- The invariants of every state held between steps (R38), with the consumer registers and the canonical
form of the arrays. Clause (9), `run != 3`, holds by the type of `run`; clause (10) is the last line. -/
structure State.Inv (s : State) : Prop where
  demod : s.demodOk
  assembler : s.assemblerOk
  mailbox : s.mailboxOk
  consumers : s.consumersOk
  arrays : s.arraysWf
  stopped : s.run = .stopped → s.decoderAtPowerOn

/-- The acceptance of a command (R217), checks (2) to (4): its port, its mailbox mode, its state. -/
def accepted (i : Instr) (s : State) : Bool :=
  match i with
  | .sample _ => decide (s.port = .sample) && decide (s.run ≠ .stopped)
  | .tmo _ => decide (s.port = .sample) && decide (s.run ≠ .stopped)
  | .copy c => s.onConsumerPort c && decide (s.cfg.mailboxMode = .twoPhase) && decide ((s.consumer c).ph = .idle)
  | .clear c => s.onConsumerPort c && decide (s.cfg.mailboxMode = .twoPhase) && decide ((s.consumer c).ph = .copied)
  | .take c => s.onConsumerPort c && decide (s.cfg.mailboxMode = .atomicTake)
  | .start => decide (s.port = .control) && decide (s.run = .stopped)
  | .stop => decide (s.port = .control) && decide (s.run = .running)
  | .setTimeout _ => decide (s.port = .control)

/-- The event is a desync (R213). -/
def Event.isDesync : Event → Bool
  | .desync _ => true
  | _ => false

/-- An `ATOMIC_TAKE` block and its `TWO_PHASE` twin (R169): equal but for the mode, the copy buffers and the
trace, every consumer port of either IDLE. -/
structure TwoPhaseTwin (s s' : State) : Prop where
  mode : s.cfg.mailboxMode = .atomicTake
  twin : s' = { s with cfg := { s.cfg with mailboxMode := .twoPhase }, consumers := s'.consumers, trace := s'.trace }
  idle : ∀ c : ConsumerNo, (s.consumer c).ph = .idle ∧ (s'.consumer c).ph = .idle

/-- The events of one logical bit sent as its canonical pulses (R104, R105). -/
def bitEvents (b : Bool) : List Event := if b then [.bit1] else [.half, .bit0]

end Sys2Proof.Machine
end

