-- ==== Sys2Proof/Certificates/Slice0/Obligations.lean ====
section
/-! DEFINITION. The statements for the provers, from the numbered rules of spec/. -/

open Sys2Proof Sys2Proof.Machine

/-! ### Encoding -/

/-- Decoding the encoding of a command gives the command back, every operand at every value (R72 to R75). -/
def Obligations.EveryCommandDecodesFromItsEncoding : Prop :=
  ∀ i : Instr, decode (encode i) = some i

/-- A word that decodes is the encoding of what it decodes to: no bit of a word is dropped. -/
def Obligations.EveryDecodedWordIsItsEncoding : Prop :=
  ∀ (w : Word) (i : Instr), decode w = some i → encode i = w

/-- R75: the rows of the opcode map, and that no two overlap. -/
def Obligations.OpcodeMapSelectsEachCommand : Prop :=
  (∀ w : Word,
    (w &&& 0xFF000000#32 = 0x18000000#32 ↔ decode w = some (.sample (w.extractLsb' 0 24))) ∧
    (w &&& 0xFF000000#32 = 0x10000000#32 ↔ decode w = some (.tmo (w.extractLsb' 0 24))) ∧
    (w &&& 0xFFFFFFF0#32 = 0x20000000#32 ↔ decode w = some (.copy (w.extractLsb' 0 4))) ∧
    (w &&& 0xFFFFFFF0#32 = 0x30000000#32 ↔ decode w = some (.clear (w.extractLsb' 0 4))) ∧
    (w &&& 0xFFFFFFF0#32 = 0x40000000#32 ↔ decode w = some (.take (w.extractLsb' 0 4))) ∧
    (w &&& 0xFFFFFFFF#32 = 0x80000000#32 ↔ decode w = some .start) ∧
    (w &&& 0xFFFFFFFF#32 = 0x90000000#32 ↔ decode w = some .stop) ∧
    (w &&& 0xF0000000#32 = 0xA0000000#32 ↔ decode w = some (.setTimeout (w.extractLsb' 0 28)))) ∧
  ∀ (w : Word) (r q : OpRow), r ∈ opcodeMap → q ∈ opcodeMap → r.selects w = true → q.selects w = true → r = q

/-- R76: the reserved words are exactly those listed, and a reserved word, or a legal word on the wrong
port, is REJECTED: the response, `EV_REJECT`, and no register changes. -/
def Obligations.ReservedWordsAndWrongPortsAreRejected : Prop :=
  (∀ w : Word, decode w = none ↔
    (w.extractLsb' 28 4 ∈ [0x0#4, 0x5#4, 0x6#4, 0x7#4, 0xB#4, 0xC#4, 0xD#4, 0xE#4, 0xF#4]) ∨
    (w.extractLsb' 28 4 = 0x1#4 ∧ w.extractLsb' 24 3 ≠ 0#3) ∨
    (w.extractLsb' 28 4 ∈ [0x2#4, 0x3#4, 0x4#4] ∧ w.extractLsb' 4 24 ≠ 0#24) ∨
    (w.extractLsb' 28 4 ∈ [0x8#4, 0x9#4] ∧ w.extractLsb' 0 28 ≠ 0#28)) ∧
  ∀ (s : State) (p : Presented) (rest : List Presented), s.inbox = p :: rest →
    (decode p.word = none ∨ ∃ i, decode p.word = some i ∧ p.port ≠ legalPort i) →
    step s = .next { s with
      inbox := rest, port := p.port, resp := some ⟨.rejected, 0#4, []⟩, trace := [.reject] }

/-- Some words of section 2.1 of spec/95_test_vectors.md decode as the table there says. -/
def Obligations.DecodingTableOfTheSpec : Prop :=
  decode 0x180003E8#32 = some (.sample 1000#24) ∧ decode 0x18FFFFFF#32 = some (.sample 16777215#24) ∧
  decode 0x10000123#32 = some (.tmo 0x123#24) ∧ decode 0x2000000F#32 = some (.copy 15#4) ∧
  decode 0x30000001#32 = some (.clear 1#4) ∧ decode 0x40000000#32 = some (.take 0#4) ∧
  decode 0x80000000#32 = some .start ∧ decode 0x90000000#32 = some .stop ∧
  decode 0xA00001F4#32 = some (.setTimeout 500#28) ∧
  decode 0x19000000#32 = none ∧ decode 0x20000010#32 = none ∧ decode 0x80000001#32 = none ∧
  decode 0xB0000000#32 = none

/-- R77: where each field of a response stands in the 128 packed bits. -/
def Obligations.ResponsePacking : Prop :=
  ∀ r : Response, r.packed.extractLsb' 0 2 = r.st.code ∧ r.packed.extractLsb' 2 2 = 0#2 ∧
    r.packed.extractLsb' 4 4 = r.len ∧ ∀ i < 15, r.packed.extractLsb' (8 * i + 8) 8 = r.data.read i

/-! ### One step -/

/-- A step runs the command that the oldest presented word decodes to, on the port it arrived on, with the
response and trace of the command before it gone. -/
def Obligations.StepRunsDecodedCommand : Prop :=
  ∀ (s : State) (p : Presented) (rest : List Presented) (i : Instr),
    s.inbox = p :: rest → decode p.word = some i →
    step s = exec i { s with inbox := rest, port := p.port, resp := none, trace := [] }

/-- The model's choice (log 1): with no command presented nothing changes. R242 says only that the block
waits for the next command. -/
def Obligations.StepWaitsWithNoCommand : Prop :=
  ∀ s : State, s.inbox = [] → step s = .next s

/-- R217: a command that fails a check is REJECTED with no register changed, and one that passes them all
is not REJECTED. -/
def Obligations.RejectedExactlyWhenNotAccepted : Prop :=
  ∀ (i : Instr) (s : State),
    (accepted i s = false →
      exec i s = .next { s with resp := some ⟨.rejected, 0#4, []⟩, trace := s.trace ++ [.reject] }) ∧
    (accepted i s = true → ∀ t, exec i s = .next t → t.resp ≠ some ⟨.rejected, 0#4, []⟩)

/-! ### SAMPLE and TMO: the demodulator -/

/-- R102, for thresholds in the order R7 asks for: an invalid sample is BAD; a valid one falls in exactly
the band that holds its duration. -/
def Obligations.ClassifyFollowsTheBands : Prop :=
  ∀ (cfg : Config) (d : Dur), cfg.thresholdsOrdered →
    classify cfg false d = .bad ∧
    (classify cfg true d = .noise ↔ d.toNat < cfg.pNoise) ∧
    (classify cfg true d = .full ↔ cfg.pNoise ≤ d.toNat ∧ cfg.pMid ≤ d.toNat ∧ d.toNat < cfg.pHigh) ∧
    (classify cfg true d = .half ↔ cfg.pNoise ≤ d.toNat ∧ cfg.pLow ≤ d.toNat ∧ d.toNat < cfg.pMid) ∧
    (classify cfg true d = .bad ↔ (cfg.pNoise ≤ d.toNat ∧ d.toNat < cfg.pLow) ∨ cfg.pHigh ≤ d.toNat)

/-- R103: a noise pulse changes no register. -/
def Obligations.NoisePulseChangesNoRegister : Prop :=
  ∀ (s : State) (d : Dur), s.port = .sample → s.run = .running → d.toNat < s.cfg.pNoise →
    exec (.sample d) s = .next { s with resp := some ⟨.ok, 0#4, []⟩, trace := s.trace ++ [.noise] }

/-- R104: a full pulse clears `hb` and pushes a 1, in every RUNNING state. -/
def Obligations.FullPulsePushesOne : Prop :=
  ∀ (s : State) (d : Dur), s.port = .sample → s.run = .running → s.cfg.thresholdsOrdered →
    s.cfg.pMid ≤ d.toNat → d.toNat < s.cfg.pHigh →
    exec (.sample d) s = pushBit true { s with hb := false, resp := some ⟨.ok, 0#4, []⟩ }

/-- R105: a half pulse sets a clear `hb`; where `hb` is set, it clears it and pushes a 0. -/
def Obligations.HalfPulsesPairIntoZero : Prop :=
  ∀ (s : State) (d : Dur), s.port = .sample → s.run = .running → s.cfg.thresholdsOrdered →
    s.cfg.pLow ≤ d.toNat → d.toNat < s.cfg.pMid →
    (s.hb = false → exec (.sample d) s = .next { s with
      hb := true, resp := some ⟨.ok, 0#4, []⟩, trace := s.trace ++ [.half] }) ∧
    (s.hb = true →
      exec (.sample d) s = pushBit false { s with hb := false, resp := some ⟨.ok, 0#4, []⟩ })

/-- A full pulse that does not complete a byte: the whole next state (R100, R104, R107). `bc = 7` with
`final_byte`, and `bc = 8`, complete a byte and have statements of their own. -/
def Obligations.FullPulseWithinByte : Prop :=
  ∀ (s : State) (d : Dur), s.port = .sample → s.run = .running → s.cfg.thresholdsOrdered →
    s.cfg.pMid ≤ d.toNat → d.toNat < s.cfg.pHigh → s.bc.toNat < 8 → ¬ (s.bc = 7#4 ∧ finalByte s = true) →
    exec (.sample d) s = .next { s with
      hb := false, acc := (s.acc <<< 1) ||| 1#9, bc := s.bc + 1#4,
      resp := some ⟨.ok, 0#4, []⟩, trace := s.trace ++ [.bit1] }

/-- R108: at the eighth bit of the last byte the synthesised parity always passes and the byte is
committed, whatever its 8 bits are; at the eighth bit of any other byte nothing is synthesised. -/
def Obligations.SynthesisedParityAlwaysPasses : Prop :=
  ∀ (s : State) (b : Bool), s.bc = 7#4 →
    (finalByte s = true → ∀ d : Byte, d = s.acc.extractLsb' 0 7 ++ BitVec.ofBool b →
      pushBit b s = commit (rev8 d) { s with
        hb := false, bc := 0#4, acc := 0#9,
        trace := s.trace ++ [if b then .bit1 else .bit0, .synth, .byte s.bi (rev8 d)] }) ∧
    (finalByte s = false → pushBit b s = .next { s with
      bc := 8#4, acc := s.acc.extractLsb' 0 8 ++ BitVec.ofBool b,
      trace := s.trace ++ [if b then .bit1 else .bit0] })

/-- R109: the ninth bit is checked against the parity of the other eight; a mismatch desynchronises, a
match resets the demodulator and commits the reversed byte. -/
def Obligations.NinthBitIsCheckedAsParity : Prop :=
  ∀ (s : State) (b : Bool) (d : Byte), s.bc = 8#4 → d = s.acc.extractLsb' 0 8 →
    (parity8 d ≠ b → pushBit b s = .next { s with
      hb := false, bc := 0#4, acc := 0#9, bi := 0#4, fb := [], elv := false, el := 0#5,
      trace := s.trace ++ [if b then .bit1 else .bit0, .desync .parity] }) ∧
    (parity8 d = b → pushBit b s = commit (rev8 d) { s with
      hb := false, bc := 0#4, acc := 0#9,
      trace := s.trace ++ [if b then .bit1 else .bit0, .byte s.bi (rev8 d)] })

/-- R110: reversing each nibble and swapping the nibbles is a full 8-bit reversal. -/
def Obligations.RevEightReversesAllBits : Prop :=
  ∀ (d : Byte) (k : Nat), k < 8 → (rev8 d).getLsbD k = d.getLsbD (7 - k)

/-- R106: a valid pulse in no band resets the demodulator and the assembler; nothing else changes. -/
def Obligations.BadDurationDesynchronises : Prop :=
  ∀ (s : State) (d : Dur), s.port = .sample → s.run = .running → s.cfg.thresholdsOrdered →
    (s.cfg.pNoise ≤ d.toNat ∧ d.toNat < s.cfg.pLow) ∨ s.cfg.pHigh ≤ d.toNat →
    exec (.sample d) s = .next { s with
      hb := false, bc := 0#4, acc := 0#9, bi := 0#4, fb := [], elv := false, el := 0#5,
      resp := some ⟨.ok, 0#4, []⟩, trace := s.trace ++ [.desync .duration] }

/-- R101: TMO is REJECTED while STOPPED, ends the worker while STOPPING, and desynchronises while RUNNING,
whatever DUR holds. -/
def Obligations.TimeoutDesynchronises : Prop :=
  ∀ (s : State) (d : Dur), s.port = .sample →
    (s.run = .stopped → exec (.tmo d) s = .next { s with
      resp := some ⟨.rejected, 0#4, []⟩, trace := s.trace ++ [.reject] }) ∧
    (s.run = .stopping → exec (.tmo d) s = .next { s with
      hb := false, bc := 0#4, acc := 0#9, bi := 0#4, fb := [], elv := false, el := 0#5,
      mbReady := false, mbFrame := [], run := .stopped,
      resp := some ⟨.ok, 0#4, []⟩, trace := s.trace ++ [.exit] }) ∧
    (s.run = .running → exec (.tmo d) s = .next { s with
      hb := false, bc := 0#4, acc := 0#9, bi := 0#4, fb := [], elv := false, el := 0#5,
      resp := some ⟨.ok, 0#4, []⟩, trace := s.trace ++ [.desync .timeout] })

/-- R192: a SAMPLE or TMO that finds STOPPING is discarded; the worker exits. -/
def Obligations.WorkerExitCompletesAStop : Prop :=
  ∀ (s : State) (d : Dur) (i : Instr), i = .sample d ∨ i = .tmo d → s.port = .sample → s.run = .stopping →
    exec i s = .next { s with
      hb := false, bc := 0#4, acc := 0#9, bi := 0#4, fb := [], elv := false, el := 0#5,
      mbReady := false, mbFrame := [], run := .stopped,
      resp := some ⟨.ok, 0#4, []⟩, trace := s.trace ++ [.exit] }

/-! ### The assembler -/

/-- R132: after the commit of byte 0 the sync monitor resets unless the byte is `P_SYNC`. -/
def Obligations.SyncByteIsChecked : Prop :=
  ∀ (s : State) (b : Byte), s.bi = 0#4 →
    (b ≠ s.cfg.pSync → commit b s = .next { s with
      hb := false, bc := 0#4, acc := 0#9, bi := 0#4, fb := [], elv := false, el := 0#5,
      trace := s.trace ++ [.desync .sync] }) ∧
    (b = s.cfg.pSync → commit b s = .next { s with fb := s.fb.set 0 b, bi := 1#4 })

/-- R131: a commit that resets nothing leaves byte `bi` of the buffer as written and every other byte as
it was, and advances `bi` by one. Only `bi`, `fb`, `elv`, `el` and the trace change. -/
def Obligations.CommitWritesOneByte : Prop :=
  ∀ (s t : State) (b : Byte), commit b s = .next t → t.bi ≠ 0#4 →
    t.bi = s.bi + 1#4 ∧ t.fb.read s.bi.toNat = b ∧
    (∀ k, k ≠ s.bi.toNat → t.fb.read k = s.fb.read k) ∧
    t = { s with bi := t.bi, fb := t.fb, elv := t.elv, el := t.el, trace := t.trace }

/-- R135: a length above `L_MAX` desynchronises; R134: an accepted one is held while the frame is
incomplete. `f` is the buffer with the byte written. -/
def Obligations.LengthIsBounded : Prop :=
  ∀ (s : State) (b : Byte) (f : Memory), 2 ≤ s.bi.toNat → s.bi.toNat < 15 → f = s.fb.set s.bi.toNat b →
    (12 < (payloadLen f).toNat → commit b s = .next { s with
      hb := false, bc := 0#4, acc := 0#9, bi := 0#4, fb := [], elv := false, el := 0#5,
      trace := s.trace ++ [.desync .length] }) ∧
    ((payloadLen f).toNat ≤ 12 → s.bi.toNat ≤ (payloadLen f).toNat → commit b s = .next { s with
      fb := f, bi := s.bi + 1#4, elv := true, el := payloadLen f,
      trace := s.trace ++ (if s.elv then [] else [.length (payloadLen f)]) })

/-- R136: once the XOR byte is in, it must equal the XOR of the payload; a mismatch resets. With a match
and no CRC byte yet, the frame goes on. -/
def Obligations.XorChecksumIsChecked : Prop :=
  ∀ (s : State) (b : Byte) (f : Memory), 2 ≤ s.bi.toNat → s.bi.toNat < 15 → f = s.fb.set s.bi.toNat b →
    (payloadLen f).toNat ≤ 12 → (payloadLen f).toNat + 1 ≤ s.bi.toNat →
    (xor8 f 1 (payloadLen f).toNat ≠ f.read ((payloadLen f).toNat + 1) → commit b s = .next { s with
      hb := false, bc := 0#4, acc := 0#9, bi := 0#4, fb := [], elv := false, el := 0#5,
      trace := s.trace ++ (if s.elv then [] else [.length (payloadLen f)]) ++ [.desync .xor] }) ∧
    (xor8 f 1 (payloadLen f).toNat = f.read ((payloadLen f).toNat + 1) →
      s.bi.toNat = (payloadLen f).toNat + 1 → commit b s = .next { s with
        fb := f, bi := s.bi + 1#4, elv := true, el := payloadLen f,
        trace := s.trace ++ (if s.elv then [] else [.length (payloadLen f)]) })

/-- R139: once the CRC byte is in and the XOR matches, a CRC mismatch resets. -/
def Obligations.CrcMismatchDesynchronises : Prop :=
  ∀ (s : State) (b : Byte) (f : Memory), 2 ≤ s.bi.toNat → s.bi.toNat < 15 → f = s.fb.set s.bi.toNat b →
    (payloadLen f).toNat ≤ 12 → (payloadLen f).toNat + 2 ≤ s.bi.toNat →
    xor8 f 1 (payloadLen f).toNat = f.read ((payloadLen f).toNat + 1) →
    crc8 s.cfg f 1 ((payloadLen f).toNat + 1) ≠ f.read ((payloadLen f).toNat + 2) →
    commit b s = .next { s with
      hb := false, bc := 0#4, acc := 0#9, bi := 0#4, fb := [], elv := false, el := 0#5,
      trace := s.trace ++ (if s.elv then [] else [.length (payloadLen f)]) ++ [.desync .crc] }

/-- A frame whose checksums match is published and the demodulator and assembler are reset (R140), in a
block whose publish cannot fail (R170). -/
def Obligations.MatchingFrameIsPublished : Prop :=
  ∀ (s : State) (b : Byte) (f : Memory), 2 ≤ s.bi.toNat → s.bi.toNat < 15 → f = s.fb.set s.bi.toNat b →
    (payloadLen f).toNat ≤ 12 → (payloadLen f).toNat + 2 ≤ s.bi.toNat →
    xor8 f 1 (payloadLen f).toNat = f.read ((payloadLen f).toNat + 1) →
    crc8 s.cfg f 1 ((payloadLen f).toNat + 1) = f.read ((payloadLen f).toNat + 2) →
    s.cfg.publishCanFail = false →
    commit b s = .next { s with
      hb := false, bc := 0#4, acc := 0#9, bi := 0#4, fb := [], elv := false, el := 0#5,
      mbReady := true, mbFrame := f,
      trace := s.trace ++ (if s.elv then [] else [.length (payloadLen f)]) ++ [.publish] }

/-- R137: `xor8` is 0 on the empty range and takes one byte more at each index. -/
def Obligations.XorOfARange : Prop :=
  ∀ (f : Memory) (a b : Nat), (b < a → xor8 f a b = 0#8) ∧ xor8 f a a = f.read a ∧
    (a ≤ b → xor8 f a (b + 1) = xor8 f a b ^^^ f.read (b + 1))

/-- R138 calls the per-byte form equal: XOR the byte in, then shift eight times. For every polynomial. -/
def Obligations.CrcPerByteFormIsEqual : Prop :=
  ∀ poly c x : Byte, crcBits poly 8 c x =
    (fun r : Byte => if r.getLsbD 0 then (r >>> 1) ^^^ poly else r >>> 1)^[8] (c ^^^ x)

/-- Appending the CRC to its input gives a CRC of 0 (section 2.6 of spec/95_test_vectors.md). -/
def Obligations.CrcOfMessageWithItsCrcIsZero : Prop :=
  ∀ (poly init : Byte) (m : List Byte), crcOf poly init (m ++ [crcOf poly init m]) = 0#8

/-! ### The mailbox -/

/-- R170: with `PUBLISH_CAN_FAIL` false every publish succeeds; with it true each publish is one free draw,
and a failed one changes no mailbox register; the reset that follows is the same. -/
def Obligations.PublishOutcomeIsAFreeDraw : Prop :=
  ∀ s : State,
    (s.cfg.publishCanFail = false → frameComplete s = { s with
      hb := false, bc := 0#4, acc := 0#9, bi := 0#4, fb := [], elv := false, el := 0#5,
      mbReady := true, mbFrame := s.fb, trace := s.trace ++ [.publish] }) ∧
    (s.cfg.publishCanFail = true → frameComplete s =
      if Config.freePublishFails s.cfg.instanceNo s.drawCount then { s with
        hb := false, bc := 0#4, acc := 0#9, bi := 0#4, fb := [], elv := false, el := 0#5,
        drawCount := s.drawCount + 1, trace := s.trace ++ [.publishDropped] }
      else { s with
        hb := false, bc := 0#4, acc := 0#9, bi := 0#4, fb := [], elv := false, el := 0#5,
        mbReady := true, mbFrame := s.fb, drawCount := s.drawCount + 1, trace := s.trace ++ [.publish] })

/-- R162: when COPY is REJECTED, when it finds no data, and what it copies. -/
def Obligations.CopyTakesTheSlot : Prop :=
  ∀ (s : State) (c : ConsumerNo),
    (s.cfg.mailboxMode ≠ .twoPhase ∨ s.cfg.nConsumers ≤ c.toNat ∨ s.port ≠ .consumer c.toNat ∨
        (s.consumer c).ph = .copied →
      exec (.copy c) s = .next { s with
        resp := some ⟨.rejected, 0#4, []⟩, trace := s.trace ++ [.reject] }) ∧
    (s.cfg.mailboxMode = .twoPhase → c.toNat < s.cfg.nConsumers → s.port = .consumer c.toNat →
      (s.consumer c).ph = .idle →
      (s.mbReady = false → exec (.copy c) s = .next { s with
        resp := some ⟨.nodata, 0#4, []⟩, trace := s.trace ++ [.nodata] }) ∧
      (s.mbReady = true → ∃ t, exec (.copy c) s = .next t ∧ t.consumer c = ⟨.copied, s.mbFrame⟩ ∧
        (∀ d, d ≠ c → t.consumer d = s.consumer d) ∧
        t = { s with
          consumers := t.consumers, resp := some ⟨.ok, 0#4, []⟩, trace := s.trace ++ [.copy] }))

/-- R163: when CLEAR is REJECTED; otherwise it empties the slot, returns the copy with its length, and
leaves the copy buffer as it is. -/
def Obligations.ClearReturnsTheCopy : Prop :=
  ∀ (s : State) (c : ConsumerNo),
    (s.cfg.mailboxMode ≠ .twoPhase ∨ s.cfg.nConsumers ≤ c.toNat ∨ s.port ≠ .consumer c.toNat ∨
        (s.consumer c).ph = .idle →
      exec (.clear c) s = .next { s with
        resp := some ⟨.rejected, 0#4, []⟩, trace := s.trace ++ [.reject] }) ∧
    (s.cfg.mailboxMode = .twoPhase → c.toNat < s.cfg.nConsumers → s.port = .consumer c.toNat →
      (s.consumer c).ph = .copied →
      ∃ t, exec (.clear c) s = .next t ∧ t.consumer c = ⟨.idle, (s.consumer c).cb⟩ ∧
        (∀ d, d ≠ c → t.consumer d = s.consumer d) ∧
        t = { s with
          mbReady := false, mbFrame := [], consumers := t.consumers,
          resp := some ⟨.data, BitVec.ofNat 4 ((payloadLen (s.consumer c).cb).toNat + 1), (s.consumer c).cb⟩,
          trace := s.trace ++ [.clear] })

/-- R164: when TAKE is REJECTED, when it finds no data, and that otherwise it returns the slot and empties
it. -/
def Obligations.TakeReturnsTheSlot : Prop :=
  ∀ (s : State) (c : ConsumerNo),
    (s.cfg.mailboxMode ≠ .atomicTake ∨ s.cfg.nConsumers ≤ c.toNat ∨ s.port ≠ .consumer c.toNat →
      exec (.take c) s = .next { s with
        resp := some ⟨.rejected, 0#4, []⟩, trace := s.trace ++ [.reject] }) ∧
    (s.cfg.mailboxMode = .atomicTake → c.toNat < s.cfg.nConsumers → s.port = .consumer c.toNat →
      (s.mbReady = false → exec (.take c) s = .next { s with
        resp := some ⟨.nodata, 0#4, []⟩, trace := s.trace ++ [.nodata] }) ∧
      (s.mbReady = true → exec (.take c) s = .next { s with
        mbReady := false, mbFrame := [],
        resp := some ⟨.data, BitVec.ofNat 4 ((payloadLen s.mbFrame).toNat + 1), s.mbFrame⟩,
        trace := s.trace ++ [.take] }))

/-- The length returned with a valid frame is `L + 1`, in 1..13 (R166). -/
def Obligations.LengthReturnedIsOneToThirteen : Prop :=
  ∀ (cfg : Config) (f : Memory), FrameValid cfg f →
    (Response.ofFrame f).len.toNat = (payloadLen f).toNat + 1 ∧
    1 ≤ (Response.ofFrame f).len.toNat ∧ (Response.ofFrame f).len.toNat ≤ 13

/-- A frame published between a consumer's COPY and its CLEAR is lost (R167): the CLEAR returns the older
copy, the slot is empty, and no consumer register holds what was not there before. -/
def Obligations.FramePublishedInTheGapIsLost : Prop :=
  ∀ (s t : State) (c : ConsumerNo) (f : Memory), s.cfg.publishCanFail = false →
    s.cfg.mailboxMode = .twoPhase → c.toNat < s.cfg.nConsumers → s.port = .consumer c.toNat →
    (s.consumer c).ph = .copied → exec (.clear c) (publish f s) = .next t →
    (∃ n, t.resp = some ⟨.data, n, (s.consumer c).cb⟩) ∧ t.mbReady = false ∧ t.mbFrame = [] ∧
    ∀ d, (t.consumer d).cb = (s.consumer d).cb

/-- Two consumers may both return one frame (R168): COPY, COPY, CLEAR, CLEAR. -/
def Obligations.TwoConsumersMayReturnOneFrame : Prop :=
  ∀ (s : State) (c d : ConsumerNo), c ≠ d → s.cfg.mailboxMode = .twoPhase →
    c.toNat < s.cfg.nConsumers → d.toNat < s.cfg.nConsumers → s.mbReady = true →
    (s.consumer c).ph = .idle → (s.consumer d).ph = .idle →
    ∃ t u, issueAll [presented (.copy c), presented (.copy d), presented (.clear c)] s = .next t ∧
      issue (presented (.clear d)) t = .next u ∧
      t.resp = some (Response.ofFrame s.mbFrame) ∧ u.resp = some (Response.ofFrame s.mbFrame)

/-- Every result of an `ATOMIC_TAKE` block is one of its `TWO_PHASE` twin (R169): a `getDecodedData` with
nothing in the gap answers the same, every command but COPY, CLEAR and TAKE answers the same, and the
blocks stay twins. -/
def Obligations.AtomicTakeIsATwoPhaseRun : Prop :=
  ∀ s s' : State, TwoPhaseTwin s s' →
    (∀ (c : ConsumerNo) (t : State), c.toNat < s.cfg.nConsumers → getDecodedData c [] s = .next t →
      ∃ t', getDecodedData c [] s' = .next t' ∧ t'.resp = t.resp ∧ TwoPhaseTwin t t') ∧
    (∀ (p : Presented) (t : State),
      (∀ c, decode p.word ≠ some (.copy c) ∧ decode p.word ≠ some (.clear c) ∧ decode p.word ≠ some (.take c)) →
      issue p s = .next t → ∃ t', issue p s' = .next t' ∧ t'.resp = t.resp ∧ TwoPhaseTwin t t')

/-! ### The control port -/

/-- R190: START from STOPPED zeroes the demodulator, assembler and mailbox and enters RUNNING; otherwise it
is REJECTED. -/
def Obligations.StartInitialisesAndRuns : Prop :=
  ∀ s : State, s.port = .control →
    (s.run = .stopped → exec .start s = .next { s with
      hb := false, bc := 0#4, acc := 0#9, bi := 0#4, fb := [], elv := false, el := 0#5,
      mbReady := false, mbFrame := [], run := .running,
      resp := some ⟨.ok, 0#4, []⟩, trace := s.trace ++ [.start] }) ∧
    (s.run ≠ .stopped → exec .start s = .next { s with
      resp := some ⟨.rejected, 0#4, []⟩, trace := s.trace ++ [.reject] })

/-- R191: STOP from RUNNING sets STOPPING and changes nothing else; otherwise it is REJECTED. -/
def Obligations.StopRequestsTermination : Prop :=
  ∀ s : State, s.port = .control →
    (s.run = .running → exec .stop s = .next { s with
      run := .stopping, resp := some ⟨.ok, 0#4, []⟩, trace := s.trace ++ [.stopReq] }) ∧
    (s.run ≠ .running → exec .stop s = .next { s with
      resp := some ⟨.rejected, 0#4, []⟩, trace := s.trace ++ [.reject] })

/-- R193: SET_TIMEOUT writes a non-zero operand and ignores 0, in every `run` state. -/
def Obligations.SetTimeoutWritesNonZero : Prop :=
  ∀ (s : State) (ms : Millis), s.port = .control →
    (ms = 0#28 → exec (.setTimeout ms) s = .next { s with
      resp := some ⟨.ok, 0#4, []⟩, trace := s.trace ++ [.tmoIgnored] }) ∧
    (ms ≠ 0#28 → exec (.setTimeout ms) s = .next { s with
      tmoMs := ms, resp := some ⟨.ok, 0#4, []⟩, trace := s.trace ++ [.tmoSet] })

/-! ### Reset -/

/-- R39: the power-on value of every register, for every configuration. -/
def Obligations.PowerOnValues : Prop :=
  ∀ (cfg : Config) (s : State), s = State.powerOn cfg →
    s.hb = false ∧ s.bc = 0#4 ∧ s.acc = 0#9 ∧ s.bi = 0#4 ∧ (∀ i, s.fb.read i = 0#8) ∧
    s.elv = false ∧ s.el = 0#5 ∧ s.mbReady = false ∧ (∀ i, s.mbFrame.read i = 0#8) ∧
    s.run = .stopped ∧ s.tmoMs = cfg.timeoutDefaultMs ∧
    ∀ c, (s.consumer c).ph = .idle ∧ ∀ i, (s.consumer c).cb.read i = 0#8

/-- After power-on the only commands with an effect are START and SET_TIMEOUT (R242): on the port it is
legal on, every other command leaves every register as it is; the consume command of the configured mode
answers NODATA, every other one is REJECTED. -/
def Obligations.OnlyStartAndTimeoutActAfterPowerOn : Prop :=
  ∀ (cfg : Config) (i : Instr) (s t : State), s = State.powerOn cfg → i.wf cfg.nConsumers = true →
    i ≠ .start → (∀ ms, i ≠ .setTimeout ms) → issue (presented i) s = .next t →
    t = { s with port := legalPort i, resp := t.resp, trace := t.trace } ∧
    ((∀ c, i = .copy c → cfg.mailboxMode = .twoPhase → t.resp = some ⟨.nodata, 0#4, []⟩) ∧
     (∀ c, i = .take c → cfg.mailboxMode = .atomicTake → t.resp = some ⟨.nodata, 0#4, []⟩) ∧
     ((∀ c, i = .copy c → cfg.mailboxMode = .atomicTake) → (∀ c, i = .take c → cfg.mailboxMode = .twoPhase) →
       t.resp = some ⟨.rejected, 0#4, []⟩))

/-! ### Invariants -/

/-- The invariants of R38 hold at power-on, for every configuration. -/
def Obligations.InvariantsHoldAtPowerOn : Prop :=
  ∀ cfg : Config, (State.powerOn cfg).Inv

/-- Every step keeps the invariants of R38, from every state that meets them. -/
def Obligations.EveryStepKeepsTheInvariants : Prop :=
  ∀ s t : State, s.Inv → Sys2Proof.Machine.step s = .next t → t.Inv

/-- No error stops the block (R210): from every state that meets the invariants, whatever is presented, a
step gives a next state. -/
def Obligations.NoStepStopsTheBlock : Prop :=
  ∀ s : State, s.Inv → ∃ t, step s = .next t

/-- The published frames are valid (R140): a step that publishes, from a state that meets the invariants,
leaves a valid frame in the slot, with `mb.ready` set and the decoder reset. -/
def Obligations.PublishedFramesAreValid : Prop :=
  ∀ s t : State, s.Inv → s.inbox ≠ [] → step s = .next t → Event.publish ∈ t.trace →
    FrameValid t.cfg t.mbFrame ∧ t.mbReady = true ∧ t.decoderReset

/-! ### What a command leaves alone -/

/-- `tmo_ms` is written only by SET_TIMEOUT, on the control port, with a non-zero operand (R33). -/
def Obligations.TimeoutWrittenOnlyBySetTimeout : Prop :=
  ∀ (i : Instr) (s t : State), exec i s = .next t →
    t.tmoMs = s.tmoMs ∨ ∃ ms, i = .setTimeout ms ∧ ms ≠ 0#28 ∧ s.port = .control ∧ t.tmoMs = ms

/-- A consumer's registers are private to it (R64): only COPY and CLEAR of that consumer change them, and
`cb[c]` only COPY (R35). -/
def Obligations.ConsumerRegistersArePrivate : Prop :=
  ∀ (i : Instr) (s t : State) (d : ConsumerNo), exec i s = .next t →
    (t.consumer d = s.consumer d ∨ i = .copy d ∨ i = .clear d) ∧
    ((t.consumer d).cb = (s.consumer d).cb ∨
      (i = .copy d ∧ s.mbReady = true ∧ (t.consumer d).cb = s.mbFrame))

/-- `mb.ready` goes to 1, and `mb.frame` takes anything but zeros, only in a SAMPLE that publishes (R30,
R31). -/
def Obligations.SlotFilledOnlyByPublish : Prop :=
  ∀ (i : Instr) (s t : State), s.trace = [] → exec i s = .next t →
    (t.mbReady = s.mbReady ∧ t.mbFrame = s.mbFrame) ∨ (t.mbReady = false ∧ t.mbFrame = []) ∨
    (t.mbReady = true ∧ Event.publish ∈ t.trace ∧ ∃ d, i = .sample d)

/-- The consumer commands read and clear the slot and touch no producer or host register (R64). -/
def Obligations.ConsumerCommandsLeaveTheDecoder : Prop :=
  ∀ (i : Instr) (c : ConsumerNo) (s t : State), i = .copy c ∨ i = .clear c ∨ i = .take c → exec i s = .next t →
    t = { s with
      mbReady := t.mbReady, mbFrame := t.mbFrame, consumers := t.consumers, resp := t.resp, trace := t.trace } ∧
    (i = .copy c → t.mbReady = s.mbReady ∧ t.mbFrame = s.mbFrame) ∧ (i = .take c → t.consumers = s.consumers)

/-- SAMPLE and TMO touch no consumer register, `tmo_ms` or the configuration, and `run` only by the
worker's exit (R64, R192). -/
def Obligations.SamplePortLeavesConsumersAndHost : Prop :=
  ∀ (i : Instr) (d : Dur) (s t : State), i = .sample d ∨ i = .tmo d → exec i s = .next t →
    t.consumers = s.consumers ∧ t.tmoMs = s.tmoMs ∧ t.cfg = s.cfg ∧ t.inbox = s.inbox ∧ t.port = s.port ∧
    (t.run = s.run ∨ (s.run = .stopping ∧ t.run = .stopped))

/-- What a SAMPLE stores to the frame buffer: nothing, the reset to zeros, or one byte at index `bi`, with
`bi` advanced (R131, R141). -/
def Obligations.SampleStoresOnlyAtTheByteIndex : Prop :=
  ∀ (d : Dur) (s t : State), exec (.sample d) s = .next t →
    (t.fb = s.fb ∧ t.bi = s.bi) ∨ (t.fb = [] ∧ t.bi = 0#4) ∨
    (t.bi = s.bi + 1#4 ∧ ∀ k, k ≠ s.bi.toNat → t.fb.read k = s.fb.read k)

/-- R214: a desync leaves the response OK, and touches neither the mailbox, `run`, `tmo_ms` nor any
consumer register. With it, R141's reset. -/
def Obligations.DesyncTouchesOnlyTheDecoder : Prop :=
  ∀ (i : Instr) (cause : DesyncCause) (s t : State), s.trace = [] → exec i s = .next t →
    Event.desync cause ∈ t.trace →
    t.resp = some ⟨.ok, 0#4, []⟩ ∧ t.mbReady = s.mbReady ∧ t.mbFrame = s.mbFrame ∧ t.run = s.run ∧
    t.tmoMs = s.tmoMs ∧ t.consumers = s.consumers ∧ t.decoderReset

/-- A command raises at most one desync, and one that completes a frame raises none (R216). -/
def Obligations.AtMostOneDesyncPerCommand : Prop :=
  ∀ (i : Instr) (s t : State), s.trace = [] → exec i s = .next t →
    (t.trace.filter Event.isDesync).length ≤ 1 ∧
    (Event.publish ∈ t.trace ∨ Event.publishDropped ∈ t.trace → t.trace.filter Event.isDesync = [])

/-- No step changes the configuration (R20). The second clause is the model's choice (log 1): a step takes
the oldest command of the model's own list `inbox`, and none where that is empty. -/
def Obligations.ConfigurationIsFixed : Prop :=
  ∀ s t : State, step s = .next t → t.cfg = s.cfg ∧ t.inbox = s.inbox.tail

/-! ### On the air, and outside the block -/

/-- A byte sent with parity, `B[0]` first (R81), is committed as `B`, from a state in which no bit of a byte
is held and `final_byte = 0`. -/
def Obligations.ByteSentWithParityIsCommitted : Prop :=
  ∀ (s : State) (b : Byte), s.port = .sample → s.run = .running → s.hb = false → s.bc = 0#4 → s.acc = 0#9 →
    finalByte s = false → classify s.cfg true 1000#24 = .full → classify s.cfg true 400#24 = .half →
    execAll (bytePulses b) s = commit b { s with
      resp := some ⟨.ok, 0#4, []⟩,
      trace := s.trace ++ (parityBits b).flatMap bitEvents ++ [.byte s.bi b] }

/-- The last byte of a frame, sent without parity (R82), is committed as it was sent. -/
def Obligations.LastByteSentWithoutParityIsCommitted : Prop :=
  ∀ (s : State) (b : Byte), s.port = .sample → s.run = .running → s.hb = false → s.bc = 0#4 → s.acc = 0#9 →
    finalByte s = true → classify s.cfg true 1000#24 = .full → classify s.cfg true 400#24 = .half →
    execAll (lastBytePulses b) s = commit b { s with
      resp := some ⟨.ok, 0#4, []⟩,
      trace := s.trace ++ (dataBits b).flatMap bitEvents ++ [.synth, .byte s.bi b] }

/-- Every frame that can be sent is received: for every payload whose frame has its length in byte 2
(R85), the pulses of R83, from a RUNNING block in the reset state, publish exactly the frame's bytes and
leave the decoder reset (R140). -/
def Obligations.EveryFrameSentIsPublished : Prop :=
  ∀ (s : State) (payload : List Byte), s.port = .sample → s.run = .running → s.decoderReset →
    s.cfg.publishCanFail = false → framePayloadOk s.cfg payload →
    classify s.cfg true 1000#24 = .full → classify s.cfg true 400#24 = .half →
    ∃ t, execAll (framePulses s.cfg payload) s = .next t ∧ t.mbReady = true ∧
      (∀ i < 15, t.mbFrame.read i = (frameBytes s.cfg payload).getD i 0#8) ∧
      t = { s with
        mbReady := true, mbFrame := t.mbFrame, resp := some ⟨.ok, 0#4, []⟩, trace := t.trace }

/-- R79: an invalid sample becomes TMO; a valid one becomes SAMPLE with its duration, saturated at
`2^DUR_W - 1`; a saturated duration classifies as the true one, a desync. For every legal order of the
thresholds and every `DUR_W` that the field DUR holds. -/
def Obligations.AdapterSaturatesDurations : Prop :=
  ∀ cfg : Config, cfg.thresholdsOrdered → cfg.durW ≤ durFieldWidth →
    (∀ micros, ∃ d, adapterSample cfg false micros = .tmo d) ∧
    (∀ micros, micros < 2 ^ cfg.durW →
      ∃ d, adapterSample cfg true micros = .sample d ∧ d.toNat = micros) ∧
    (∀ micros, 2 ^ cfg.durW ≤ micros →
      ∃ d, adapterSample cfg true micros = .sample d ∧ d.toNat = 2 ^ cfg.durW - 1 ∧
        classify cfg true d = .bad)

/-- Host `start(line)` (R196), in the model's form of the contract (log 13): an illegal line id fails
`ConfigError` with no action; a line enable that fails, `IOError` with no state change; a worker creation that
fails disables the line and fails `ConcurrencyError` without START; else START is issued last, and from STOPPED
the block is RUNNING with no error, from RUNNING or STOPPING it is unchanged and the host fails
`ConcurrencyError`. -/
def Obligations.HostStartFollowsItsContract : Prop :=
  ∀ (s : State) (line : Nat) (w : Collaborators),
    (line = 0 ∨ s.cfg.pLineMax ≤ line → hostStart line w s = ⟨[], some .configError, s⟩) ∧
    (0 < line → line < s.cfg.pLineMax →
      (w.enableOk = false → hostStart line w s = ⟨[.enableLine line], some .ioError, s⟩) ∧
      (w.enableOk = true → w.spawnOk = false → hostStart line w s =
        ⟨[.enableLine line, .createWorker, .disableLine line], some .concurrencyError, s⟩) ∧
      (w.enableOk = true → w.spawnOk = true →
        (s.run = .stopped →
          (hostStart line w s).actions = [.enableLine line, .createWorker, .command .start] ∧
          (hostStart line w s).error = none ∧
          issue (presented .start) s = .next (hostStart line w s).after ∧
          (hostStart line w s).after.run = .running) ∧
        (s.run ≠ .stopped →
          (hostStart line w s).error = some .concurrencyError ∧
          (hostStart line w s).after = { s with
            port := .control, resp := some ⟨.rejected, 0#4, []⟩, trace := [.reject] })))
end

