-- ==== Sys2Proof/Laws/Memory.lean ====
section
/-! SUPPORT. The byte arrays: what a write changes and leaves alone, that every operation keeps the
canonical form, and that arrays in canonical form with equal bytes are equal. -/

namespace Sys2Proof.Machine

@[simp] theorem Memory.read_nil (i : Nat) : Memory.read [] i = 0#8 := rfl

theorem Memory.read_cons (j : Nat) (v : Byte) (m : Memory) (i : Nat) :
    Memory.read ((j, v) :: m) i = if j = i then v else Memory.read m i := rfl

theorem Memory.read_of_not_listed {m : Memory} {i : Nat} (h : ∀ x ∈ m, x.1 ≠ i) : m.read i = 0#8 := by
  induction m with
  | nil => rfl
  | cons x m ih =>
    rw [Memory.read_cons, if_neg (h x List.mem_cons_self)]
    exact ih fun y hy => h y (List.mem_cons_of_mem _ hy)

theorem Memory.mem_erase {m : Memory} {i : Nat} {x : Host.Cell} : x ∈ m.erase i ↔ x ∈ m ∧ x.1 ≠ i := by
  simp [Memory.erase]

@[simp] theorem Memory.read_erase_self (m : Memory) (i : Nat) : (m.erase i).read i = 0#8 :=
  Memory.read_of_not_listed fun _ hx => (Memory.mem_erase.mp hx).2

theorem Memory.read_erase_other (m : Memory) {i k : Nat} (h : k ≠ i) : (m.erase i).read k = m.read k := by
  induction m with
  | nil => rfl
  | cons x m ih =>
    obtain ⟨j, v⟩ := x
    by_cases hj : j = i
    · have hk : j ≠ k := by omega
      have he : Memory.erase ((j, v) :: m) i = Memory.erase m i := by simp [Memory.erase, hj]
      rw [he, ih, Memory.read_cons, if_neg hk]
    · have he : Memory.erase ((j, v) :: m) i = (j, v) :: Memory.erase m i := by simp [Memory.erase, hj]
      rw [he, Memory.read_cons, Memory.read_cons, ih]

theorem Memory.read_insertAt_self {m : Memory} {i : Nat} (v : Byte) (h : ∀ x ∈ m, x.1 ≠ i) :
    (m.insertAt i v).read i = v := by
  induction m with
  | nil => simp [Memory.insertAt, Memory.read_cons]
  | cons x m ih =>
    obtain ⟨j, w⟩ := x
    simp only [Memory.insertAt]
    split
    · simp [Memory.read_cons]
    · rw [Memory.read_cons, if_neg (h (j, w) List.mem_cons_self)]
      exact ih fun y hy => h y (List.mem_cons_of_mem _ hy)

theorem Memory.read_insertAt_other (m : Memory) {i k : Nat} (v : Byte) (h : k ≠ i) :
    (m.insertAt i v).read k = m.read k := by
  induction m with
  | nil => simp [Memory.insertAt, Memory.read_cons, h.symm]
  | cons x m ih =>
    obtain ⟨j, w⟩ := x
    simp only [Memory.insertAt]
    split
    · rw [Memory.read_cons, if_neg h.symm]
    · simp only [Memory.read_cons, ih]

/-- Reading the byte just written. -/
@[simp] theorem Memory.read_set_self (m : Memory) (i : Nat) (v : Byte) : (m.set i v).read i = v := by
  unfold Memory.set
  split
  · next h => rw [Memory.read_erase_self, h]
  · exact Memory.read_insertAt_self v fun _ hx => (Memory.mem_erase.mp hx).2

/-- A write leaves every other byte alone. -/
theorem Memory.read_set_other (m : Memory) {i k : Nat} (v : Byte) (h : k ≠ i) : (m.set i v).read k = m.read k := by
  unfold Memory.set
  split
  · exact Memory.read_erase_other m h
  · rw [Memory.read_insertAt_other _ v h, Memory.read_erase_other m h]

/-- Reading any byte after a write. -/
theorem Memory.read_set (m : Memory) (i k : Nat) (v : Byte) :
    (m.set i v).read k = if k = i then v else m.read k := by
  split
  · next h => rw [h, Memory.read_set_self]
  · next h => exact Memory.read_set_other m v h

/-- What a write answers: the array with the one byte changed, or nothing outside 0..14. -/
theorem Memory.write_eq_some {m m' : Memory} {i : Nat} {v : Byte} :
    m.write i v = some m' ↔ i < frameCap ∧ m' = m.set i v := by
  unfold Memory.write
  split <;> simp_all [eq_comm]

theorem Memory.wf_nil : Memory.wf [] := by decide

theorem Memory.mem_insertAt {m : Memory} {i : Nat} {v : Byte} {x : Host.Cell} :
    x ∈ m.insertAt i v ↔ x = (i, v) ∨ x ∈ m := by
  induction m with
  | nil => simp [Memory.insertAt]
  | cons y m ih =>
    obtain ⟨j, w⟩ := y
    simp only [Memory.insertAt]
    split
    · simp
    · simp only [List.mem_cons, ih]; tauto

theorem Memory.wf_erase {m : Memory} (h : m.wf) (i : Nat) : (m.erase i).wf :=
  ⟨h.1.sublist List.filter_sublist, fun x hx => h.2 x (Memory.mem_erase.mp hx).1⟩

theorem Memory.pairwise_insertAt {m : Memory} {i : Nat} (v : Byte)
    (hs : m.Pairwise (fun x y => x.1 < y.1)) (hi : ∀ x ∈ m, x.1 ≠ i) :
    (m.insertAt i v).Pairwise (fun x y => x.1 < y.1) := by
  induction m with
  | nil => simp [Memory.insertAt]
  | cons y m ih =>
    obtain ⟨j, w⟩ := y
    obtain ⟨hj, hm⟩ := List.pairwise_cons.mp hs
    have hji : j ≠ i := hi (j, w) List.mem_cons_self
    simp only [Memory.insertAt]
    split
    · next hlt =>
      refine List.pairwise_cons.mpr ⟨fun x hx => ?_, hs⟩
      rcases List.mem_cons.mp hx with rfl | hx
      · exact hlt
      · exact hlt.trans (hj x hx)
    · next hge =>
      refine List.pairwise_cons.mpr
        ⟨fun x hx => ?_, ih hm fun x hx => hi x (List.mem_cons_of_mem _ hx)⟩
      rcases Memory.mem_insertAt.mp hx with rfl | hx
      · simp only; omega
      · exact hj x hx

/-- A write inside the array keeps the canonical form. -/
theorem Memory.wf_set {m : Memory} (h : m.wf) {i : Nat} (hi : i < frameCap) (v : Byte) : (m.set i v).wf := by
  have he := Memory.wf_erase h i
  unfold Memory.set
  split
  · exact he
  · next hv =>
    refine ⟨Memory.pairwise_insertAt v he.1 fun _ hx => (Memory.mem_erase.mp hx).2, fun x hx => ?_⟩
    rcases Memory.mem_insertAt.mp hx with rfl | hx
    · exact ⟨hv, hi⟩
    · exact he.2 x hx

theorem Memory.wf_ofBytesFrom (i : Nat) (bs : List Byte) : (Memory.ofBytesFrom i bs).wf := by
  induction bs generalizing i with
  | nil => exact Memory.wf_nil
  | cons b bs ih =>
    unfold Memory.ofBytesFrom
    split
    · next h => exact Memory.wf_set (ih (i + 1)) h b
    · exact Memory.wf_nil

theorem Memory.wf_ofBytes (bs : List Byte) : (Memory.ofBytes bs).wf := Memory.wf_ofBytesFrom 0 bs

theorem Memory.read_of_mem {m : Memory} (h : m.wf) {x : Host.Cell} (hx : x ∈ m) : m.read x.1 = x.2 := by
  induction m with
  | nil => simp at hx
  | cons y m ih =>
    obtain ⟨j, w⟩ := y
    obtain ⟨hj, hm⟩ := List.pairwise_cons.mp h.1
    rcases List.mem_cons.mp hx with rfl | hx
    · simp [Memory.read_cons]
    · have hlt : j < x.1 := hj x hx
      rw [Memory.read_cons, if_neg (by omega)]
      exact ih ⟨hm, fun z hz => h.2 z (List.mem_cons_of_mem _ hz)⟩ hx

theorem Memory.mem_iff_read {m : Memory} (h : m.wf) (x : Host.Cell) :
    x ∈ m ↔ m.read x.1 = x.2 ∧ x.2 ≠ 0#8 := by
  refine ⟨fun hx => ⟨Memory.read_of_mem h hx, (h.2 x hx).1⟩, fun ⟨hr, hv⟩ => ?_⟩
  by_contra hx
  refine hv ?_
  rw [← hr]
  refine Memory.read_of_not_listed fun y hy he => hx ?_
  have : y = x := Prod.ext he (by rw [← Memory.read_of_mem h hy, he, hr])
  exact this ▸ hy

theorem Memory.read_outside {m : Memory} (h : m.wf) {i : Nat} (hi : frameCap ≤ i) : m.read i = 0#8 :=
  Memory.read_of_not_listed fun x hx => by have := (h.2 x hx).2; omega

/-- Arrays in canonical form with the same 15 bytes are the same array. -/
theorem Memory.eq_of_reads {m n : Memory} (hm : m.wf) (hn : n.wf) (h : ∀ i < frameCap, m.read i = n.read i) :
    m = n := by
  have hmem : ∀ x, x ∈ m ↔ x ∈ n := by
    intro x
    rw [Memory.mem_iff_read hm, Memory.mem_iff_read hn]
    by_cases hx : x.1 < frameCap
    · rw [h x.1 hx]
    · rw [Memory.read_outside hm (by omega), Memory.read_outside hn (by omega)]
  have nodup : ∀ {l : Memory}, l.wf → l.Nodup := fun {l} hl =>
    hl.1.imp fun {a b} hab he => by simp [he] at hab
  exact List.Perm.eq_of_pairwise (fun a b _ _ hab hba => absurd (hab.trans hba) (lt_irrefl _)) hm.1 hn.1
    ((List.perm_ext_iff_of_nodup (nodup hm) (nodup hn)).mpr hmem)

/-- An array in canonical form whose bytes are all 0 is the empty list. -/
theorem Memory.eq_nil_of_reads {m : Memory} (hm : m.wf) (h : ∀ i < frameCap, m.read i = 0#8) : m = [] :=
  Memory.eq_of_reads hm Memory.wf_nil fun i hi => by simpa using h i hi

end Sys2Proof.Machine
end

