-- ==== Sys2Proof/Laws/State.lean ====
section
/-! SUPPORT. What each named update of the state does to each field: one lemma for each, so that no proof
unfolds an update. -/

namespace Sys2Proof.Machine

variable (s : State)

/-! ### State.emit -/

@[simp] theorem State.emit_cfg (e : Event) : (s.emit e).cfg = s.cfg := rfl
@[simp] theorem State.emit_hb (e : Event) : (s.emit e).hb = s.hb := rfl
@[simp] theorem State.emit_bc (e : Event) : (s.emit e).bc = s.bc := rfl
@[simp] theorem State.emit_acc (e : Event) : (s.emit e).acc = s.acc := rfl
@[simp] theorem State.emit_bi (e : Event) : (s.emit e).bi = s.bi := rfl
@[simp] theorem State.emit_fb (e : Event) : (s.emit e).fb = s.fb := rfl
@[simp] theorem State.emit_elv (e : Event) : (s.emit e).elv = s.elv := rfl
@[simp] theorem State.emit_el (e : Event) : (s.emit e).el = s.el := rfl
@[simp] theorem State.emit_mbReady (e : Event) : (s.emit e).mbReady = s.mbReady := rfl
@[simp] theorem State.emit_mbFrame (e : Event) : (s.emit e).mbFrame = s.mbFrame := rfl
@[simp] theorem State.emit_run (e : Event) : (s.emit e).run = s.run := rfl
@[simp] theorem State.emit_tmoMs (e : Event) : (s.emit e).tmoMs = s.tmoMs := rfl
@[simp] theorem State.emit_consumers (e : Event) : (s.emit e).consumers = s.consumers := rfl
@[simp] theorem State.emit_inbox (e : Event) : (s.emit e).inbox = s.inbox := rfl
@[simp] theorem State.emit_port (e : Event) : (s.emit e).port = s.port := rfl
@[simp] theorem State.emit_resp (e : Event) : (s.emit e).resp = s.resp := rfl
@[simp] theorem State.emit_trace (e : Event) : (s.emit e).trace = s.trace ++ [e] := rfl
@[simp] theorem State.emit_drawCount (e : Event) : (s.emit e).drawCount = s.drawCount := rfl

/-! ### State.respond -/

@[simp] theorem State.respond_cfg (r : Response) : (s.respond r).cfg = s.cfg := rfl
@[simp] theorem State.respond_hb (r : Response) : (s.respond r).hb = s.hb := rfl
@[simp] theorem State.respond_bc (r : Response) : (s.respond r).bc = s.bc := rfl
@[simp] theorem State.respond_acc (r : Response) : (s.respond r).acc = s.acc := rfl
@[simp] theorem State.respond_bi (r : Response) : (s.respond r).bi = s.bi := rfl
@[simp] theorem State.respond_fb (r : Response) : (s.respond r).fb = s.fb := rfl
@[simp] theorem State.respond_elv (r : Response) : (s.respond r).elv = s.elv := rfl
@[simp] theorem State.respond_el (r : Response) : (s.respond r).el = s.el := rfl
@[simp] theorem State.respond_mbReady (r : Response) : (s.respond r).mbReady = s.mbReady := rfl
@[simp] theorem State.respond_mbFrame (r : Response) : (s.respond r).mbFrame = s.mbFrame := rfl
@[simp] theorem State.respond_run (r : Response) : (s.respond r).run = s.run := rfl
@[simp] theorem State.respond_tmoMs (r : Response) : (s.respond r).tmoMs = s.tmoMs := rfl
@[simp] theorem State.respond_consumers (r : Response) : (s.respond r).consumers = s.consumers := rfl
@[simp] theorem State.respond_inbox (r : Response) : (s.respond r).inbox = s.inbox := rfl
@[simp] theorem State.respond_port (r : Response) : (s.respond r).port = s.port := rfl
@[simp] theorem State.respond_resp (r : Response) : (s.respond r).resp = some r := rfl
@[simp] theorem State.respond_trace (r : Response) : (s.respond r).trace = s.trace := rfl
@[simp] theorem State.respond_drawCount (r : Response) : (s.respond r).drawCount = s.drawCount := rfl

/-! ### State.reject -/

@[simp] theorem State.reject_cfg : (s.reject).cfg = s.cfg := rfl
@[simp] theorem State.reject_hb : (s.reject).hb = s.hb := rfl
@[simp] theorem State.reject_bc : (s.reject).bc = s.bc := rfl
@[simp] theorem State.reject_acc : (s.reject).acc = s.acc := rfl
@[simp] theorem State.reject_bi : (s.reject).bi = s.bi := rfl
@[simp] theorem State.reject_fb : (s.reject).fb = s.fb := rfl
@[simp] theorem State.reject_elv : (s.reject).elv = s.elv := rfl
@[simp] theorem State.reject_el : (s.reject).el = s.el := rfl
@[simp] theorem State.reject_mbReady : (s.reject).mbReady = s.mbReady := rfl
@[simp] theorem State.reject_mbFrame : (s.reject).mbFrame = s.mbFrame := rfl
@[simp] theorem State.reject_run : (s.reject).run = s.run := rfl
@[simp] theorem State.reject_tmoMs : (s.reject).tmoMs = s.tmoMs := rfl
@[simp] theorem State.reject_consumers : (s.reject).consumers = s.consumers := rfl
@[simp] theorem State.reject_inbox : (s.reject).inbox = s.inbox := rfl
@[simp] theorem State.reject_port : (s.reject).port = s.port := rfl
@[simp] theorem State.reject_resp : (s.reject).resp = some Response.rejected := rfl
@[simp] theorem State.reject_trace : (s.reject).trace = s.trace ++ [.reject] := rfl
@[simp] theorem State.reject_drawCount : (s.reject).drawCount = s.drawCount := rfl

/-! ### State.demodReset -/

@[simp] theorem State.demodReset_cfg : (s.demodReset).cfg = s.cfg := rfl
@[simp] theorem State.demodReset_hb : (s.demodReset).hb = false := rfl
@[simp] theorem State.demodReset_bc : (s.demodReset).bc = 0#4 := rfl
@[simp] theorem State.demodReset_acc : (s.demodReset).acc = 0#9 := rfl
@[simp] theorem State.demodReset_bi : (s.demodReset).bi = s.bi := rfl
@[simp] theorem State.demodReset_fb : (s.demodReset).fb = s.fb := rfl
@[simp] theorem State.demodReset_elv : (s.demodReset).elv = s.elv := rfl
@[simp] theorem State.demodReset_el : (s.demodReset).el = s.el := rfl
@[simp] theorem State.demodReset_mbReady : (s.demodReset).mbReady = s.mbReady := rfl
@[simp] theorem State.demodReset_mbFrame : (s.demodReset).mbFrame = s.mbFrame := rfl
@[simp] theorem State.demodReset_run : (s.demodReset).run = s.run := rfl
@[simp] theorem State.demodReset_tmoMs : (s.demodReset).tmoMs = s.tmoMs := rfl
@[simp] theorem State.demodReset_consumers : (s.demodReset).consumers = s.consumers := rfl
@[simp] theorem State.demodReset_inbox : (s.demodReset).inbox = s.inbox := rfl
@[simp] theorem State.demodReset_port : (s.demodReset).port = s.port := rfl
@[simp] theorem State.demodReset_resp : (s.demodReset).resp = s.resp := rfl
@[simp] theorem State.demodReset_trace : (s.demodReset).trace = s.trace := rfl
@[simp] theorem State.demodReset_drawCount : (s.demodReset).drawCount = s.drawCount := rfl

/-! ### State.daReset -/

@[simp] theorem State.daReset_cfg : (s.daReset).cfg = s.cfg := rfl
@[simp] theorem State.daReset_hb : (s.daReset).hb = false := rfl
@[simp] theorem State.daReset_bc : (s.daReset).bc = 0#4 := rfl
@[simp] theorem State.daReset_acc : (s.daReset).acc = 0#9 := rfl
@[simp] theorem State.daReset_bi : (s.daReset).bi = 0#4 := rfl
@[simp] theorem State.daReset_fb : (s.daReset).fb = [] := rfl
@[simp] theorem State.daReset_elv : (s.daReset).elv = false := rfl
@[simp] theorem State.daReset_el : (s.daReset).el = 0#5 := rfl
@[simp] theorem State.daReset_mbReady : (s.daReset).mbReady = s.mbReady := rfl
@[simp] theorem State.daReset_mbFrame : (s.daReset).mbFrame = s.mbFrame := rfl
@[simp] theorem State.daReset_run : (s.daReset).run = s.run := rfl
@[simp] theorem State.daReset_tmoMs : (s.daReset).tmoMs = s.tmoMs := rfl
@[simp] theorem State.daReset_consumers : (s.daReset).consumers = s.consumers := rfl
@[simp] theorem State.daReset_inbox : (s.daReset).inbox = s.inbox := rfl
@[simp] theorem State.daReset_port : (s.daReset).port = s.port := rfl
@[simp] theorem State.daReset_resp : (s.daReset).resp = s.resp := rfl
@[simp] theorem State.daReset_trace : (s.daReset).trace = s.trace := rfl
@[simp] theorem State.daReset_drawCount : (s.daReset).drawCount = s.drawCount := rfl

/-! ### State.desync -/

@[simp] theorem State.desync_cfg (cause : DesyncCause) : (s.desync cause).cfg = s.cfg := rfl
@[simp] theorem State.desync_hb (cause : DesyncCause) : (s.desync cause).hb = false := rfl
@[simp] theorem State.desync_bc (cause : DesyncCause) : (s.desync cause).bc = 0#4 := rfl
@[simp] theorem State.desync_acc (cause : DesyncCause) : (s.desync cause).acc = 0#9 := rfl
@[simp] theorem State.desync_bi (cause : DesyncCause) : (s.desync cause).bi = 0#4 := rfl
@[simp] theorem State.desync_fb (cause : DesyncCause) : (s.desync cause).fb = [] := rfl
@[simp] theorem State.desync_elv (cause : DesyncCause) : (s.desync cause).elv = false := rfl
@[simp] theorem State.desync_el (cause : DesyncCause) : (s.desync cause).el = 0#5 := rfl
@[simp] theorem State.desync_mbReady (cause : DesyncCause) : (s.desync cause).mbReady = s.mbReady := rfl
@[simp] theorem State.desync_mbFrame (cause : DesyncCause) : (s.desync cause).mbFrame = s.mbFrame := rfl
@[simp] theorem State.desync_run (cause : DesyncCause) : (s.desync cause).run = s.run := rfl
@[simp] theorem State.desync_tmoMs (cause : DesyncCause) : (s.desync cause).tmoMs = s.tmoMs := rfl
@[simp] theorem State.desync_consumers (cause : DesyncCause) : (s.desync cause).consumers = s.consumers := rfl
@[simp] theorem State.desync_inbox (cause : DesyncCause) : (s.desync cause).inbox = s.inbox := rfl
@[simp] theorem State.desync_port (cause : DesyncCause) : (s.desync cause).port = s.port := rfl
@[simp] theorem State.desync_resp (cause : DesyncCause) : (s.desync cause).resp = s.resp := rfl
@[simp] theorem State.desync_trace (cause : DesyncCause) : (s.desync cause).trace = s.trace ++ [.desync cause] := rfl
@[simp] theorem State.desync_drawCount (cause : DesyncCause) : (s.desync cause).drawCount = s.drawCount := rfl

/-! ### State.clearMailbox -/

@[simp] theorem State.clearMailbox_cfg : (s.clearMailbox).cfg = s.cfg := rfl
@[simp] theorem State.clearMailbox_hb : (s.clearMailbox).hb = s.hb := rfl
@[simp] theorem State.clearMailbox_bc : (s.clearMailbox).bc = s.bc := rfl
@[simp] theorem State.clearMailbox_acc : (s.clearMailbox).acc = s.acc := rfl
@[simp] theorem State.clearMailbox_bi : (s.clearMailbox).bi = s.bi := rfl
@[simp] theorem State.clearMailbox_fb : (s.clearMailbox).fb = s.fb := rfl
@[simp] theorem State.clearMailbox_elv : (s.clearMailbox).elv = s.elv := rfl
@[simp] theorem State.clearMailbox_el : (s.clearMailbox).el = s.el := rfl
@[simp] theorem State.clearMailbox_mbReady : (s.clearMailbox).mbReady = false := rfl
@[simp] theorem State.clearMailbox_mbFrame : (s.clearMailbox).mbFrame = [] := rfl
@[simp] theorem State.clearMailbox_run : (s.clearMailbox).run = s.run := rfl
@[simp] theorem State.clearMailbox_tmoMs : (s.clearMailbox).tmoMs = s.tmoMs := rfl
@[simp] theorem State.clearMailbox_consumers : (s.clearMailbox).consumers = s.consumers := rfl
@[simp] theorem State.clearMailbox_inbox : (s.clearMailbox).inbox = s.inbox := rfl
@[simp] theorem State.clearMailbox_port : (s.clearMailbox).port = s.port := rfl
@[simp] theorem State.clearMailbox_resp : (s.clearMailbox).resp = s.resp := rfl
@[simp] theorem State.clearMailbox_trace : (s.clearMailbox).trace = s.trace := rfl
@[simp] theorem State.clearMailbox_drawCount : (s.clearMailbox).drawCount = s.drawCount := rfl

/-! ### State.workerExit -/

@[simp] theorem State.workerExit_cfg : (s.workerExit).cfg = s.cfg := rfl
@[simp] theorem State.workerExit_hb : (s.workerExit).hb = false := rfl
@[simp] theorem State.workerExit_bc : (s.workerExit).bc = 0#4 := rfl
@[simp] theorem State.workerExit_acc : (s.workerExit).acc = 0#9 := rfl
@[simp] theorem State.workerExit_bi : (s.workerExit).bi = 0#4 := rfl
@[simp] theorem State.workerExit_fb : (s.workerExit).fb = [] := rfl
@[simp] theorem State.workerExit_elv : (s.workerExit).elv = false := rfl
@[simp] theorem State.workerExit_el : (s.workerExit).el = 0#5 := rfl
@[simp] theorem State.workerExit_mbReady : (s.workerExit).mbReady = false := rfl
@[simp] theorem State.workerExit_mbFrame : (s.workerExit).mbFrame = [] := rfl
@[simp] theorem State.workerExit_run : (s.workerExit).run = .stopped := rfl
@[simp] theorem State.workerExit_tmoMs : (s.workerExit).tmoMs = s.tmoMs := rfl
@[simp] theorem State.workerExit_consumers : (s.workerExit).consumers = s.consumers := rfl
@[simp] theorem State.workerExit_inbox : (s.workerExit).inbox = s.inbox := rfl
@[simp] theorem State.workerExit_port : (s.workerExit).port = s.port := rfl
@[simp] theorem State.workerExit_resp : (s.workerExit).resp = s.resp := rfl
@[simp] theorem State.workerExit_trace : (s.workerExit).trace = s.trace ++ [.exit] := rfl
@[simp] theorem State.workerExit_drawCount : (s.workerExit).drawCount = s.drawCount := rfl

/-! ### State.setConsumer -/

@[simp] theorem State.setConsumer_cfg (c : ConsumerNo) (k : ConsumerPort) : (s.setConsumer c k).cfg = s.cfg := rfl
@[simp] theorem State.setConsumer_hb (c : ConsumerNo) (k : ConsumerPort) : (s.setConsumer c k).hb = s.hb := rfl
@[simp] theorem State.setConsumer_bc (c : ConsumerNo) (k : ConsumerPort) : (s.setConsumer c k).bc = s.bc := rfl
@[simp] theorem State.setConsumer_acc (c : ConsumerNo) (k : ConsumerPort) : (s.setConsumer c k).acc = s.acc := rfl
@[simp] theorem State.setConsumer_bi (c : ConsumerNo) (k : ConsumerPort) : (s.setConsumer c k).bi = s.bi := rfl
@[simp] theorem State.setConsumer_fb (c : ConsumerNo) (k : ConsumerPort) : (s.setConsumer c k).fb = s.fb := rfl
@[simp] theorem State.setConsumer_elv (c : ConsumerNo) (k : ConsumerPort) : (s.setConsumer c k).elv = s.elv := rfl
@[simp] theorem State.setConsumer_el (c : ConsumerNo) (k : ConsumerPort) : (s.setConsumer c k).el = s.el := rfl
@[simp] theorem State.setConsumer_mbReady (c : ConsumerNo) (k : ConsumerPort) : (s.setConsumer c k).mbReady = s.mbReady := rfl
@[simp] theorem State.setConsumer_mbFrame (c : ConsumerNo) (k : ConsumerPort) : (s.setConsumer c k).mbFrame = s.mbFrame := rfl
@[simp] theorem State.setConsumer_run (c : ConsumerNo) (k : ConsumerPort) : (s.setConsumer c k).run = s.run := rfl
@[simp] theorem State.setConsumer_tmoMs (c : ConsumerNo) (k : ConsumerPort) : (s.setConsumer c k).tmoMs = s.tmoMs := rfl
@[simp] theorem State.setConsumer_inbox (c : ConsumerNo) (k : ConsumerPort) : (s.setConsumer c k).inbox = s.inbox := rfl
@[simp] theorem State.setConsumer_port (c : ConsumerNo) (k : ConsumerPort) : (s.setConsumer c k).port = s.port := rfl
@[simp] theorem State.setConsumer_resp (c : ConsumerNo) (k : ConsumerPort) : (s.setConsumer c k).resp = s.resp := rfl
@[simp] theorem State.setConsumer_trace (c : ConsumerNo) (k : ConsumerPort) : (s.setConsumer c k).trace = s.trace := rfl
@[simp] theorem State.setConsumer_drawCount (c : ConsumerNo) (k : ConsumerPort) : (s.setConsumer c k).drawCount = s.drawCount := rfl

/-! ### State.accept -/

@[simp] theorem State.accept_cfg (p : Presented) (rest : List Presented) : (s.accept p rest).cfg = s.cfg := rfl
@[simp] theorem State.accept_hb (p : Presented) (rest : List Presented) : (s.accept p rest).hb = s.hb := rfl
@[simp] theorem State.accept_bc (p : Presented) (rest : List Presented) : (s.accept p rest).bc = s.bc := rfl
@[simp] theorem State.accept_acc (p : Presented) (rest : List Presented) : (s.accept p rest).acc = s.acc := rfl
@[simp] theorem State.accept_bi (p : Presented) (rest : List Presented) : (s.accept p rest).bi = s.bi := rfl
@[simp] theorem State.accept_fb (p : Presented) (rest : List Presented) : (s.accept p rest).fb = s.fb := rfl
@[simp] theorem State.accept_elv (p : Presented) (rest : List Presented) : (s.accept p rest).elv = s.elv := rfl
@[simp] theorem State.accept_el (p : Presented) (rest : List Presented) : (s.accept p rest).el = s.el := rfl
@[simp] theorem State.accept_mbReady (p : Presented) (rest : List Presented) : (s.accept p rest).mbReady = s.mbReady := rfl
@[simp] theorem State.accept_mbFrame (p : Presented) (rest : List Presented) : (s.accept p rest).mbFrame = s.mbFrame := rfl
@[simp] theorem State.accept_run (p : Presented) (rest : List Presented) : (s.accept p rest).run = s.run := rfl
@[simp] theorem State.accept_tmoMs (p : Presented) (rest : List Presented) : (s.accept p rest).tmoMs = s.tmoMs := rfl
@[simp] theorem State.accept_consumers (p : Presented) (rest : List Presented) : (s.accept p rest).consumers = s.consumers := rfl
@[simp] theorem State.accept_inbox (p : Presented) (rest : List Presented) : (s.accept p rest).inbox = rest := rfl
@[simp] theorem State.accept_port (p : Presented) (rest : List Presented) : (s.accept p rest).port = p.port := rfl
@[simp] theorem State.accept_resp (p : Presented) (rest : List Presented) : (s.accept p rest).resp = none := rfl
@[simp] theorem State.accept_trace (p : Presented) (rest : List Presented) : (s.accept p rest).trace = [] := rfl
@[simp] theorem State.accept_drawCount (p : Presented) (rest : List Presented) : (s.accept p rest).drawCount = s.drawCount := rfl

/-! ### deliver -/

@[simp] theorem deliver_cfg (f : Memory) : (deliver f s).cfg = s.cfg := rfl
@[simp] theorem deliver_hb (f : Memory) : (deliver f s).hb = s.hb := rfl
@[simp] theorem deliver_bc (f : Memory) : (deliver f s).bc = s.bc := rfl
@[simp] theorem deliver_acc (f : Memory) : (deliver f s).acc = s.acc := rfl
@[simp] theorem deliver_bi (f : Memory) : (deliver f s).bi = s.bi := rfl
@[simp] theorem deliver_fb (f : Memory) : (deliver f s).fb = s.fb := rfl
@[simp] theorem deliver_elv (f : Memory) : (deliver f s).elv = s.elv := rfl
@[simp] theorem deliver_el (f : Memory) : (deliver f s).el = s.el := rfl
@[simp] theorem deliver_mbReady (f : Memory) : (deliver f s).mbReady = true := rfl
@[simp] theorem deliver_mbFrame (f : Memory) : (deliver f s).mbFrame = f := rfl
@[simp] theorem deliver_run (f : Memory) : (deliver f s).run = s.run := rfl
@[simp] theorem deliver_tmoMs (f : Memory) : (deliver f s).tmoMs = s.tmoMs := rfl
@[simp] theorem deliver_consumers (f : Memory) : (deliver f s).consumers = s.consumers := rfl
@[simp] theorem deliver_inbox (f : Memory) : (deliver f s).inbox = s.inbox := rfl
@[simp] theorem deliver_port (f : Memory) : (deliver f s).port = s.port := rfl
@[simp] theorem deliver_resp (f : Memory) : (deliver f s).resp = s.resp := rfl
@[simp] theorem deliver_trace (f : Memory) : (deliver f s).trace = s.trace ++ [.publish] := rfl
@[simp] theorem deliver_drawCount (f : Memory) : (deliver f s).drawCount = s.drawCount := rfl

/-! ### appendBit -/

@[simp] theorem appendBit_cfg (b : Bool) : (appendBit b s).cfg = s.cfg := rfl
@[simp] theorem appendBit_hb (b : Bool) : (appendBit b s).hb = s.hb := rfl
@[simp] theorem appendBit_bc (b : Bool) : (appendBit b s).bc = s.bc + 1#4 := rfl
@[simp] theorem appendBit_acc (b : Bool) : (appendBit b s).acc = shiftIn s.acc b := rfl
@[simp] theorem appendBit_bi (b : Bool) : (appendBit b s).bi = s.bi := rfl
@[simp] theorem appendBit_fb (b : Bool) : (appendBit b s).fb = s.fb := rfl
@[simp] theorem appendBit_elv (b : Bool) : (appendBit b s).elv = s.elv := rfl
@[simp] theorem appendBit_el (b : Bool) : (appendBit b s).el = s.el := rfl
@[simp] theorem appendBit_mbReady (b : Bool) : (appendBit b s).mbReady = s.mbReady := rfl
@[simp] theorem appendBit_mbFrame (b : Bool) : (appendBit b s).mbFrame = s.mbFrame := rfl
@[simp] theorem appendBit_run (b : Bool) : (appendBit b s).run = s.run := rfl
@[simp] theorem appendBit_tmoMs (b : Bool) : (appendBit b s).tmoMs = s.tmoMs := rfl
@[simp] theorem appendBit_consumers (b : Bool) : (appendBit b s).consumers = s.consumers := rfl
@[simp] theorem appendBit_inbox (b : Bool) : (appendBit b s).inbox = s.inbox := rfl
@[simp] theorem appendBit_port (b : Bool) : (appendBit b s).port = s.port := rfl
@[simp] theorem appendBit_resp (b : Bool) : (appendBit b s).resp = s.resp := rfl
@[simp] theorem appendBit_trace (b : Bool) : (appendBit b s).trace = s.trace ++ [if b then .bit1 else .bit0] := rfl
@[simp] theorem appendBit_drawCount (b : Bool) : (appendBit b s).drawCount = s.drawCount := rfl

/-! ### synthParity -/

@[simp] theorem synthParity_cfg : (synthParity s).cfg = s.cfg := rfl
@[simp] theorem synthParity_hb : (synthParity s).hb = s.hb := rfl
@[simp] theorem synthParity_bc : (synthParity s).bc = 9#4 := rfl
@[simp] theorem synthParity_acc : (synthParity s).acc = shiftIn s.acc (parity8 (s.acc.extractLsb' 0 8)) := rfl
@[simp] theorem synthParity_bi : (synthParity s).bi = s.bi := rfl
@[simp] theorem synthParity_fb : (synthParity s).fb = s.fb := rfl
@[simp] theorem synthParity_elv : (synthParity s).elv = s.elv := rfl
@[simp] theorem synthParity_el : (synthParity s).el = s.el := rfl
@[simp] theorem synthParity_mbReady : (synthParity s).mbReady = s.mbReady := rfl
@[simp] theorem synthParity_mbFrame : (synthParity s).mbFrame = s.mbFrame := rfl
@[simp] theorem synthParity_run : (synthParity s).run = s.run := rfl
@[simp] theorem synthParity_tmoMs : (synthParity s).tmoMs = s.tmoMs := rfl
@[simp] theorem synthParity_consumers : (synthParity s).consumers = s.consumers := rfl
@[simp] theorem synthParity_inbox : (synthParity s).inbox = s.inbox := rfl
@[simp] theorem synthParity_port : (synthParity s).port = s.port := rfl
@[simp] theorem synthParity_resp : (synthParity s).resp = s.resp := rfl
@[simp] theorem synthParity_trace : (synthParity s).trace = s.trace ++ [.synth] := rfl
@[simp] theorem synthParity_drawCount : (synthParity s).drawCount = s.drawCount := rfl

/-! ### setLength -/

@[simp] theorem setLength_cfg (l : BitVec 5) : (setLength l s).cfg = s.cfg := by unfold setLength; split <;> rfl
@[simp] theorem setLength_hb (l : BitVec 5) : (setLength l s).hb = s.hb := by unfold setLength; split <;> rfl
@[simp] theorem setLength_bc (l : BitVec 5) : (setLength l s).bc = s.bc := by unfold setLength; split <;> rfl
@[simp] theorem setLength_acc (l : BitVec 5) : (setLength l s).acc = s.acc := by unfold setLength; split <;> rfl
@[simp] theorem setLength_bi (l : BitVec 5) : (setLength l s).bi = s.bi := by unfold setLength; split <;> rfl
@[simp] theorem setLength_fb (l : BitVec 5) : (setLength l s).fb = s.fb := by unfold setLength; split <;> rfl
@[simp] theorem setLength_elv (l : BitVec 5) : (setLength l s).elv = true := rfl
@[simp] theorem setLength_el (l : BitVec 5) : (setLength l s).el = l := rfl
@[simp] theorem setLength_mbReady (l : BitVec 5) : (setLength l s).mbReady = s.mbReady := by unfold setLength; split <;> rfl
@[simp] theorem setLength_mbFrame (l : BitVec 5) : (setLength l s).mbFrame = s.mbFrame := by unfold setLength; split <;> rfl
@[simp] theorem setLength_run (l : BitVec 5) : (setLength l s).run = s.run := by unfold setLength; split <;> rfl
@[simp] theorem setLength_tmoMs (l : BitVec 5) : (setLength l s).tmoMs = s.tmoMs := by unfold setLength; split <;> rfl
@[simp] theorem setLength_consumers (l : BitVec 5) : (setLength l s).consumers = s.consumers := by unfold setLength; split <;> rfl
@[simp] theorem setLength_inbox (l : BitVec 5) : (setLength l s).inbox = s.inbox := by unfold setLength; split <;> rfl
@[simp] theorem setLength_port (l : BitVec 5) : (setLength l s).port = s.port := by unfold setLength; split <;> rfl
@[simp] theorem setLength_resp (l : BitVec 5) : (setLength l s).resp = s.resp := by unfold setLength; split <;> rfl
@[simp] theorem setLength_drawCount (l : BitVec 5) : (setLength l s).drawCount = s.drawCount := by unfold setLength; split <;> rfl

/-! ### The consumer registers -/

theorem State.consumer_congr {s t : State} (h : s.consumers = t.consumers) (c : ConsumerNo) :
    s.consumer c = t.consumer c := by
  simp only [State.consumer, h]

@[simp] theorem State.setConsumer_consumer_self (c : ConsumerNo) (k : ConsumerPort) :
    (s.setConsumer c k).consumer c = k := by
  simp [State.consumer, State.setConsumer]

theorem State.setConsumer_consumer_other {c d : ConsumerNo} (k : ConsumerPort) (h : d ≠ c) :
    (s.setConsumer c k).consumer d = s.consumer d := by
  have h' : c.toNat ≠ d.toNat := fun e => h (BitVec.eq_of_toNat_eq e.symm)
  simp [State.consumer, State.setConsumer, h']

@[simp] theorem State.emit_consumer (e : Event) (c : ConsumerNo) : (s.emit e).consumer c = s.consumer c := rfl
@[simp] theorem State.respond_consumer (r : Response) (c : ConsumerNo) : (s.respond r).consumer c = s.consumer c := rfl
@[simp] theorem State.clearMailbox_consumer (c : ConsumerNo) : s.clearMailbox.consumer c = s.consumer c := rfl
@[simp] theorem State.daReset_consumer (c : ConsumerNo) : s.daReset.consumer c = s.consumer c := rfl
@[simp] theorem State.accept_consumer (p : Presented) (rest : List Presented) (c : ConsumerNo) :
    (s.accept p rest).consumer c = s.consumer c := rfl

end Sys2Proof.Machine
end

