-- ==== Sys2Proof/Laws/Ops.lean ====
section
/-! SUPPORT. One lemma for each shared operation that says once everything it can do, for proofs to cite
instead of unfolding it. -/

namespace Sys2Proof.Machine

/-! ### Publish and the checks of a commit -/

/-- Everything a publish can do. -/
theorem publish_cases (f : Memory) (s : State) :
    publish f s = deliver f s ∨ publish f s = deliver f { s with drawCount := s.drawCount + 1 } ∨
    publish f s = ({ s with drawCount := s.drawCount + 1 }).emit .publishDropped := by
  unfold publish drawPublishFails
  split
  · simp only; split
    · exact .inr (.inr rfl)
    · exact .inr (.inl rfl)
  · exact .inl rfl

theorem publish_of_cannot_fail {s : State} (f : Memory) (h : s.cfg.publishCanFail = false) :
    publish f s = deliver f s := by
  simp [publish, h]

/-- Everything the checks that need the payload length can do, with what each outcome says. -/
theorem checkLength_cases (s : State) :
    (lenMax < (payloadLen s.fb).toNat ∧ checkLength s = s.desync .length) ∨
    ((payloadLen s.fb).toNat ≤ lenMax ∧
      (((payloadLen s.fb).toNat + 1 < s.bi.toNat ∧
          xor8 s.fb 1 (payloadLen s.fb).toNat ≠ s.fb.read ((payloadLen s.fb).toNat + 1) ∧
          checkLength s = (setLength (payloadLen s.fb) s).desync .xor) ∨
        ((payloadLen s.fb).toNat + 2 < s.bi.toNat ∧
          xor8 s.fb 1 (payloadLen s.fb).toNat = s.fb.read ((payloadLen s.fb).toNat + 1) ∧
          ((crc8 s.cfg s.fb 1 ((payloadLen s.fb).toNat + 1) ≠ s.fb.read ((payloadLen s.fb).toNat + 2) ∧
              checkLength s = (setLength (payloadLen s.fb) s).desync .crc) ∨
            (crc8 s.cfg s.fb 1 ((payloadLen s.fb).toNat + 1) = s.fb.read ((payloadLen s.fb).toNat + 2) ∧
              checkLength s = frameComplete (setLength (payloadLen s.fb) s)))) ∨
        (s.bi.toNat ≤ (payloadLen s.fb).toNat + 2 ∧
          ((payloadLen s.fb).toNat + 1 < s.bi.toNat →
            xor8 s.fb 1 (payloadLen s.fb).toNat = s.fb.read ((payloadLen s.fb).toNat + 1)) ∧
          checkLength s = setLength (payloadLen s.fb) s))) := by
  unfold checkLength
  simp only [setLength_bi, setLength_fb, setLength_cfg]
  split
  · next h => exact .inl ⟨h, rfl⟩
  · next h =>
    refine .inr ⟨by omega, ?_⟩
    split
    · next hx => exact .inl ⟨hx.1, hx.2, rfl⟩
    · next hx =>
      have hx' : (payloadLen s.fb).toNat + 1 < s.bi.toNat →
          xor8 s.fb 1 (payloadLen s.fb).toNat = s.fb.read ((payloadLen s.fb).toNat + 1) := by
        intro hlt; by_contra hne; exact hx ⟨hlt, hne⟩
      split
      · next hn =>
        refine .inr (.inl ⟨hn, hx' (by omega), ?_⟩)
        split
        · next hc => exact .inl ⟨hc, rfl⟩
        · next hc => exact .inr ⟨not_not.mp hc, rfl⟩
      · next hn => exact .inr (.inr ⟨by omega, hx', rfl⟩)

/-- Everything the checks of a commit can do. -/
theorem checkCommit_cases (s : State) :
    (s.bi = 1#4 ∧ s.fb.read 0 ≠ s.cfg.pSync ∧ checkCommit s = s.desync .sync) ∨
    (2 < s.bi.toNat ∧ checkCommit s = checkLength s) ∨
    (s.bi.toNat ≤ 2 ∧ (s.bi = 1#4 → s.fb.read 0 = s.cfg.pSync) ∧ checkCommit s = s) := by
  unfold checkCommit
  split
  · next h => exact .inl ⟨h.1, h.2, rfl⟩
  · next h =>
    split
    · next hn => exact .inr (.inl ⟨hn, rfl⟩)
    · next hn => exact .inr (.inr ⟨by omega, fun h1 => by_contra fun h2 => h ⟨h1, h2⟩, rfl⟩)

/-- A commit inside the buffer writes its byte and runs the checks. -/
theorem commit_of_index_lt {s : State} (b : Byte) (h : s.bi.toNat < frameCap) :
    commit b s = .next (checkCommit { s with fb := s.fb.set s.bi.toNat b, bi := s.bi + 1#4 }) := by
  simp [commit, Memory.write, h]

/-- A commit outside the buffer faults. -/
theorem commit_of_index_ge {s : State} (b : Byte) (h : frameCap ≤ s.bi.toNat) :
    commit b s = .fault .frameIndexOutOfRange := by
  simp [commit, Memory.write, Nat.not_lt.mpr h]

/-- When a commit gives a next state, and which. -/
theorem commit_eq_next {s t : State} {b : Byte} :
    commit b s = .next t ↔ s.bi.toNat < frameCap ∧
      t = checkCommit { s with fb := s.fb.set s.bi.toNat b, bi := s.bi + 1#4 } := by
  by_cases h : s.bi.toNat < frameCap
  · rw [commit_of_index_lt b h]
    exact ⟨fun e => ⟨h, (Host.Outcome.next.inj e).symm⟩, fun e => by rw [e.2]⟩
  · rw [commit_of_index_ge b (by omega)]
    exact ⟨fun e => by simp at e, fun e => absurd e.1 h⟩

/-! ### The demodulator -/

@[simp] theorem finalByte_emit (s : State) (e : Event) : finalByte (s.emit e) = finalByte s := rfl
@[simp] theorem finalByte_respond (s : State) (r : Response) : finalByte (s.respond r) = finalByte s := rfl
@[simp] theorem finalByte_appendBit (b : Bool) (s : State) : finalByte (appendBit b s) = finalByte s := rfl
@[simp] theorem finalByte_synthParity (s : State) : finalByte (synthParity s) = finalByte s := rfl
@[simp] theorem finalByte_demodReset (s : State) : finalByte s.demodReset = finalByte s := rfl

/-- Everything a completed byte can do: a parity desync, or the commit of the reversed byte. -/
theorem completeByte_cases (s : State) :
    (parity8 (s.acc.extractLsb' 1 8) ≠ s.acc.getLsbD 0 ∧ completeByte s = .next (s.desync .parity)) ∨
    (parity8 (s.acc.extractLsb' 1 8) = s.acc.getLsbD 0 ∧
      completeByte s = commit (rev8 (s.acc.extractLsb' 1 8))
        (s.demodReset.emit (.byte s.bi (rev8 (s.acc.extractLsb' 1 8))))) := by
  unfold completeByte
  simp only
  split
  · next h => exact .inl ⟨h, rfl⟩
  · next h => exact .inr ⟨not_not.mp h, rfl⟩

/-- Everything a pushed bit can do: stay within the byte, or complete it, after a synthesised parity bit or
on its own ninth bit. -/
theorem pushBit_cases (b : Bool) (s : State) :
    (s.bc + 1#4 ≠ 9#4 ∧ ¬ (s.bc + 1#4 = 8#4 ∧ finalByte s = true) ∧ pushBit b s = .next (appendBit b s)) ∨
    (s.bc + 1#4 = 8#4 ∧ finalByte s = true ∧ pushBit b s = completeByte (synthParity (appendBit b s))) ∨
    (s.bc + 1#4 = 9#4 ∧ pushBit b s = completeByte (appendBit b s)) := by
  by_cases h : s.bc + 1#4 = 8#4 ∧ finalByte s = true
  · exact .inr (.inl ⟨h.1, h.2, by simp [pushBit, finishBit, h.1, h.2]⟩)
  · by_cases h9 : s.bc + 1#4 = 9#4
    · exact .inr (.inr ⟨h9, by simp [pushBit, finishBit, h9]⟩)
    · refine .inl ⟨h9, h, ?_⟩
      rcases not_and_or.mp h with h8 | hf
      · simp [pushBit, finishBit, h8, h9]
      · simp [pushBit, finishBit, hf, h9]

/-- Everything a command on the sample port can do. -/
theorem samplePort_cases (cause : DesyncCause) (k : PulseClass) (s : State) :
    ((s.port ≠ .sample ∨ s.run = .stopped) ∧ samplePort cause k s = .next s.reject) ∨
    (s.port = .sample ∧ s.run = .stopping ∧
      samplePort cause k s = .next (s.respond Response.ok).workerExit) ∨
    (s.port = .sample ∧ s.run = .running ∧ samplePort cause k s = pulse cause k (s.respond Response.ok)) := by
  unfold samplePort
  split
  · next h => exact .inl ⟨.inl h, rfl⟩
  · next h =>
    have hp := not_not.mp h
    cases hr : s.run with
    | stopped => exact .inl ⟨.inr rfl, by simp⟩
    | stopping => exact .inr (.inl ⟨hp, rfl, by simp⟩)
    | running => exact .inr (.inr ⟨hp, rfl, by simp⟩)

/-- Everything a pulse can do while RUNNING. -/
theorem pulse_cases (cause : DesyncCause) (k : PulseClass) (s : State) :
    pulse cause k s = .next (s.emit .noise) ∨
    (∃ b, pulse cause k s = pushBit b { s with hb := false }) ∨
    pulse cause k s = .next (({ s with hb := true }).emit .half) ∨
    pulse cause k s = .next (s.desync cause) := by
  cases k with
  | noise => exact .inl rfl
  | full => exact .inr (.inl ⟨true, rfl⟩)
  | half =>
    by_cases h : s.hb = true
    · exact .inr (.inl ⟨false, by simp [pulse, halfBit, h]⟩)
    · exact .inr (.inr (.inl (by simp [pulse, halfBit, h])))
  | bad => exact .inr (.inr (.inr rfl))

/-! ### The consumer and control commands -/

/-- What the port test of a consumer command says. -/
theorem onConsumerPort_eq_true {s : State} {c : ConsumerNo} :
    s.onConsumerPort c = true ↔ c.toNat < s.cfg.nConsumers ∧ s.port = .consumer c.toNat := by
  unfold State.onConsumerPort
  rw [Bool.and_eq_true, decide_eq_true_iff, decide_eq_true_iff]
  rfl

/-- Everything COPY can do. -/
theorem execCopy_cases (c : ConsumerNo) (s : State) :
    execCopy c s = .next s.reject ∨
    (s.cfg.mailboxMode = .twoPhase ∧ s.onConsumerPort c = true ∧ (s.consumer c).ph = .idle ∧
      ((s.mbReady = false ∧ execCopy c s = .next ((s.respond Response.nodata).emit .nodata)) ∨
        (s.mbReady = true ∧ execCopy c s =
          .next (((s.setConsumer c ⟨.copied, s.mbFrame⟩).respond Response.ok).emit .copy)))) := by
  unfold execCopy
  split
  · exact .inl rfl
  · next h =>
    push Not at h
    refine .inr ⟨h.1, by simpa using h.2.1, ?_, ?_⟩
    · cases hp : (s.consumer c).ph <;> simp_all
    · split
      · next hr => exact .inl ⟨hr, rfl⟩
      · next hr => exact .inr ⟨by simpa using hr, rfl⟩

/-- Everything CLEAR can do. -/
theorem execClear_cases (c : ConsumerNo) (s : State) :
    execClear c s = .next s.reject ∨
    (s.cfg.mailboxMode = .twoPhase ∧ s.onConsumerPort c = true ∧ (s.consumer c).ph = .copied ∧
      execClear c s = .next (((s.clearMailbox.setConsumer c ⟨.idle, (s.consumer c).cb⟩).respond
        (Response.ofFrame (s.consumer c).cb)).emit .clear)) := by
  unfold execClear
  split
  · exact .inl rfl
  · next h =>
    push Not at h
    refine .inr ⟨h.1, by simpa using h.2.1, ?_, rfl⟩
    cases hp : (s.consumer c).ph <;> simp_all

/-- Everything TAKE can do. -/
theorem execTake_cases (c : ConsumerNo) (s : State) :
    execTake c s = .next s.reject ∨
    (s.cfg.mailboxMode = .atomicTake ∧ s.onConsumerPort c = true ∧
      ((s.mbReady = false ∧ execTake c s = .next ((s.respond Response.nodata).emit .nodata)) ∨
        (s.mbReady = true ∧ execTake c s =
          .next ((s.clearMailbox.respond (Response.ofFrame s.mbFrame)).emit .take)))) := by
  unfold execTake
  split
  · exact .inl rfl
  · next h =>
    push Not at h
    refine .inr ⟨h.1, by simpa using h.2, ?_⟩
    split
    · next hr => exact .inl ⟨hr, rfl⟩
    · next hr => exact .inr ⟨by simpa using hr, rfl⟩

/-- Everything START can do. -/
theorem execStart_cases (s : State) :
    execStart s = .next s.reject ∨
    (s.port = .control ∧ s.run = .stopped ∧ execStart s =
      .next ((({ s.daReset.clearMailbox with run := .running }).respond Response.ok).emit .start)) := by
  unfold execStart
  split
  · exact .inl rfl
  · next h => push Not at h; exact .inr ⟨h.1, h.2, rfl⟩

/-- Everything STOP can do. -/
theorem execStop_cases (s : State) :
    execStop s = .next s.reject ∨
    (s.port = .control ∧ s.run = .running ∧
      execStop s = .next ((({ s with run := .stopping }).respond Response.ok).emit .stopReq)) := by
  unfold execStop
  split
  · exact .inl rfl
  · next h => push Not at h; exact .inr ⟨h.1, h.2, rfl⟩

/-- Everything SET_TIMEOUT can do. -/
theorem execSetTimeout_cases (ms : Millis) (s : State) :
    execSetTimeout ms s = .next s.reject ∨
    (s.port = .control ∧
      ((ms = 0#28 ∧ execSetTimeout ms s = .next ((s.respond Response.ok).emit .tmoIgnored)) ∨
        (ms ≠ 0#28 ∧ execSetTimeout ms s =
          .next ((({ s with tmoMs := ms }).respond Response.ok).emit .tmoSet)))) := by
  unfold execSetTimeout
  split
  · exact .inl rfl
  · next h =>
    refine .inr ⟨not_not.mp h, ?_⟩
    split
    · next h0 => exact .inl ⟨h0, rfl⟩
    · next h0 => exact .inr ⟨h0, rfl⟩

/-! ### The step -/

/-- Everything a step can do. -/
theorem step_cases (s : State) :
    (s.inbox = [] ∧ step s = .next s) ∨
    ∃ p rest, s.inbox = p :: rest ∧
      ((decode p.word = none ∧ step s = .next (s.accept p rest).reject) ∨
        ∃ i, decode p.word = some i ∧ step s = exec i (s.accept p rest)) := by
  unfold step fetch
  cases h : s.inbox with
  | nil => exact .inl ⟨rfl, rfl⟩
  | cons p rest =>
    refine .inr ⟨p, rest, rfl, ?_⟩
    cases hd : decode p.word with
    | none => exact .inl ⟨rfl, by simp [hd]⟩
    | some i => exact .inr ⟨i, rfl, by simp [hd]⟩

@[simp] theorem andThen_next (s : State) (k : State → Result) : andThen (.next s) k = k s := rfl

/-- When a sequence gives a next state. -/
theorem andThen_eq_next {r : Result} {k : State → Result} {t : State} :
    andThen r k = .next t ↔ ∃ s, r = .next s ∧ k s = .next t := by
  cases r <;> simp [andThen]

/-- Commands executed in two parts. -/
theorem execAll_append (is js : List Instr) (s : State) :
    execAll (is ++ js) s = andThen (execAll is s) (execAll js) := by
  induction is generalizing s with
  | nil => rfl
  | cons i is ih =>
    simp only [List.cons_append, execAll]
    cases exec i s <;> simp [andThen, ih]

/-! ### What the producer's operations leave alone -/

/-- The fields no operation of the demodulator, the assembler and PUBLISH writes (R64). -/
structure ProducerFrame (s t : State) : Prop where
  cfg : t.cfg = s.cfg
  run : t.run = s.run
  tmoMs : t.tmoMs = s.tmoMs
  consumers : t.consumers = s.consumers
  inbox : t.inbox = s.inbox
  port : t.port = s.port
  resp : t.resp = s.resp

theorem ProducerFrame.refl (s : State) : ProducerFrame s s := ⟨rfl, rfl, rfl, rfl, rfl, rfl, rfl⟩

theorem ProducerFrame.trans {s t u : State} (h : ProducerFrame s t) (k : ProducerFrame t u) : ProducerFrame s u :=
  ⟨k.cfg.trans h.cfg, k.run.trans h.run, k.tmoMs.trans h.tmoMs, k.consumers.trans h.consumers,
    k.inbox.trans h.inbox, k.port.trans h.port, k.resp.trans h.resp⟩

theorem ProducerFrame.desync (s : State) (cause : DesyncCause) : ProducerFrame s (s.desync cause) :=
  ⟨rfl, rfl, rfl, rfl, rfl, rfl, rfl⟩

theorem ProducerFrame.setLength (l : BitVec 5) (s : State) : ProducerFrame s (setLength l s) :=
  ⟨by simp, by simp, by simp, by simp, by simp, by simp, by simp⟩

theorem ProducerFrame.publish (f : Memory) (s : State) : ProducerFrame s (publish f s) := by
  rcases publish_cases f s with h | h | h <;> rw [h] <;> exact ⟨rfl, rfl, rfl, rfl, rfl, rfl, rfl⟩

theorem ProducerFrame.frameComplete (s : State) : ProducerFrame s (frameComplete s) :=
  (ProducerFrame.publish s.fb s).trans ⟨rfl, rfl, rfl, rfl, rfl, rfl, rfl⟩

theorem ProducerFrame.checkLength (s : State) : ProducerFrame s (checkLength s) := by
  have hl := ProducerFrame.setLength (payloadLen s.fb) s
  rcases checkLength_cases s with ⟨-, h⟩ | ⟨-, ⟨-, -, h⟩ | ⟨-, -, ⟨-, h⟩ | ⟨-, h⟩⟩ | ⟨-, -, h⟩⟩ <;> rw [h]
  · exact .desync s _
  · exact hl.trans (.desync _ _)
  · exact hl.trans (.desync _ _)
  · exact hl.trans (.frameComplete _)
  · exact hl

theorem ProducerFrame.checkCommit (s : State) : ProducerFrame s (checkCommit s) := by
  rcases checkCommit_cases s with ⟨-, -, h⟩ | ⟨-, h⟩ | ⟨-, -, h⟩ <;> rw [h]
  · exact .desync s _
  · exact .checkLength s
  · exact .refl s

theorem ProducerFrame.commit {b : Byte} {s t : State} (h : commit b s = .next t) : ProducerFrame s t := by
  obtain ⟨-, rfl⟩ := commit_eq_next.mp h
  have k := ProducerFrame.checkCommit { s with fb := s.fb.set s.bi.toNat b, bi := s.bi + 1#4 }
  exact ⟨k.cfg, k.run, k.tmoMs, k.consumers, k.inbox, k.port, k.resp⟩

theorem ProducerFrame.completeByte {s t : State} (h : completeByte s = .next t) : ProducerFrame s t := by
  rcases completeByte_cases s with ⟨-, e⟩ | ⟨-, e⟩ <;> rw [e] at h
  · cases h; exact .desync s _
  · have k := ProducerFrame.commit h
    exact ⟨k.cfg, k.run, k.tmoMs, k.consumers, k.inbox, k.port, k.resp⟩

theorem ProducerFrame.pushBit {b : Bool} {s t : State} (h : pushBit b s = .next t) : ProducerFrame s t := by
  rcases pushBit_cases b s with ⟨-, -, e⟩ | ⟨-, -, e⟩ | ⟨-, e⟩ <;> rw [e] at h
  · cases h; exact ⟨rfl, rfl, rfl, rfl, rfl, rfl, rfl⟩
  · have k := ProducerFrame.completeByte h
    exact ⟨k.cfg, k.run, k.tmoMs, k.consumers, k.inbox, k.port, k.resp⟩
  · have k := ProducerFrame.completeByte h
    exact ⟨k.cfg, k.run, k.tmoMs, k.consumers, k.inbox, k.port, k.resp⟩

/-- A pulse leaves the host's and the consumers' registers alone. -/
theorem ProducerFrame.pulse {cause : DesyncCause} {k : PulseClass} {s t : State}
    (h : pulse cause k s = .next t) : ProducerFrame s t := by
  rcases pulse_cases cause k s with e | ⟨b, e⟩ | e | e <;> rw [e] at h
  · cases h; exact ⟨rfl, rfl, rfl, rfl, rfl, rfl, rfl⟩
  · have k := ProducerFrame.pushBit h
    exact ⟨k.cfg, k.run, k.tmoMs, k.consumers, k.inbox, k.port, k.resp⟩
  · cases h; exact ⟨rfl, rfl, rfl, rfl, rfl, rfl, rfl⟩
  · cases h; exact .desync s _

end Sys2Proof.Machine
end

