-- ==== Sys2Proof/Laws/HostContract.lean ====
section
/-! SUPPORT. What an issued command does, and what host `stop` can do (R197). -/

namespace Sys2Proof.Machine

/-- A command on the port it is legal on, issued, is the command executed on that port. -/
theorem issue_presented {i : Instr} (s : State) (h : decode (encode i) = some i) :
    issue (presented i) s = exec i { s with port := legalPort i, resp := none, trace := [] } := by
  simp [issue, step, presented, fetch, h, State.accept]

/-- STOP of the host, from a block that is not RUNNING: REJECTED, and no register changes (R191, R197). -/
theorem hostStopRequest_rejected {s : State} (h : s.run ≠ .running) :
    hostStopRequest s = ⟨[.command .stop], some .concurrencyError,
      { s with port := .control, resp := some Response.rejected, trace := [.reject] }⟩ := by
  simp [hostStopRequest, issue_presented s (show decode (encode .stop) = some .stop by decide), exec, execStop, h,
    afterOr, legalPort, State.reject, State.respond, State.emit, State.wasRejected, Response.rejected]

/-- STOP of the host, from a RUNNING block: STOPPING (R191, R197). -/
theorem hostStopRequest_accepted {s : State} (h : s.run = .running) :
    hostStopRequest s = ⟨[.command .stop], none,
      { s with run := .stopping, port := .control, resp := some Response.ok, trace := [.stopReq] }⟩ := by
  simp [hostStopRequest, issue_presented s (show decode (encode .stop) = some .stop by decide), exec, execStop, h,
    afterOr, legalPort, State.respond, State.emit, State.wasRejected, Response.ok]

/-- Host `stop` whose STOP is REJECTED fails and touches nothing: no wait, no line disable (R197). -/
theorem hostStop_rejected {s : State} (line : Nat) (wait : List Presented) (w : Collaborators)
    (h : s.run ≠ .running) : hostStop line wait w s = some (hostStopRequest s) := by
  simp [hostStop, hostStopRequest_rejected h]

/-- Host `stop` whose STOP is accepted, when it returns: the block is STOPPED as the wait left it, the line was
disabled after STOP, and the error is that of the line disable (R197). -/
theorem hostStop_accepted {s : State} {line : Nat} {wait : List Presented} {w : Collaborators} {r : HostReply}
    (h : s.run = .running) (hr : hostStop line wait w s = some r) :
    r.actions = [.command .stop, .disableLine line] ∧ r.after.run = .stopped ∧
      r.error = (if w.disableOk then none else some .ioError) ∧
      r.after = afterOr (hostStopRequest s).after (issueAll wait (hostStopRequest s).after) := by
  rw [hostStopRequest_accepted h]
  simp only [hostStop, hostStopRequest_accepted h, hostStopFinish] at hr
  split at hr
  · rename_i e
    simp only [Option.map_some, Option.some.injEq] at hr
    subst hr
    exact ⟨rfl, by simpa [stoppedOutput] using e, rfl, rfl⟩
  · simp at hr

end Sys2Proof.Machine
end

