-- ==== Sys2Proof/Laws/PerInstr.lean ====
section
/-! SUPPORT. Statements made for each constructor of Instr: the encoding of a command fits the command's row
of the opcode map (R75). -/

namespace Sys2Proof.Laws

/-- The word of a command has its row's match under its row's mask. -/
def EncodeFitsRow.Statement (i : Instr) : Prop := i.row.selects (encode i) = true

/-- A 32-bit word whose operand field is the low `n` bits fits a row whose mask is the bits above. -/
theorem append_and_highMask {h l : Nat} (hi : BitVec h) (lo : BitVec l) :
    (hi ++ lo) &&& (BitVec.allOnes h ++ 0#l) = hi ++ 0#l := by
  ext k hk
  simp only [BitVec.getElem_and, BitVec.getElem_append]
  split <;> simp

theorem EncodeFitsRow.sample (dur : Dur) : EncodeFitsRow.Statement (.sample dur) := by
  have h := append_and_highMask (0b0001#4 ++ 1#1 ++ 0#3) dur
  exact beq_iff_eq.mpr h

theorem EncodeFitsRow.tmo (dur : Dur) : EncodeFitsRow.Statement (.tmo dur) := by
  have h := append_and_highMask (0b0001#4 ++ 0#1 ++ 0#3) dur
  exact beq_iff_eq.mpr h

theorem EncodeFitsRow.copy (c : ConsumerNo) : EncodeFitsRow.Statement (.copy c) := by
  have h := append_and_highMask (0b0010#4 ++ 0#24) c
  exact beq_iff_eq.mpr h

theorem EncodeFitsRow.clear (c : ConsumerNo) : EncodeFitsRow.Statement (.clear c) := by
  have h := append_and_highMask (0b0011#4 ++ 0#24) c
  exact beq_iff_eq.mpr h

theorem EncodeFitsRow.take (c : ConsumerNo) : EncodeFitsRow.Statement (.take c) := by
  have h := append_and_highMask (0b0100#4 ++ 0#24) c
  exact beq_iff_eq.mpr h

theorem EncodeFitsRow.start : EncodeFitsRow.Statement .start := rfl

theorem EncodeFitsRow.stop : EncodeFitsRow.Statement .stop := rfl

theorem EncodeFitsRow.setTimeout (ms : Millis) : EncodeFitsRow.Statement (.setTimeout ms) := by
  have h := append_and_highMask 0b1010#4 ms
  exact beq_iff_eq.mpr h

end Sys2Proof.Laws
end

