-- ==== Sys2Proof/Laws/Safety.lean ====
section
/-! SUPPORT. Small lemmas about the terms of Safety.lean. -/

namespace Sys2Proof.Machine

/-- The reset of R141 leaves the demodulator and assembler in the reset state. -/
theorem State.daReset_decoderReset (s : State) : s.daReset.decoderReset := ⟨rfl, rfl, rfl, rfl, rfl, rfl, rfl⟩

theorem State.desync_decoderReset (s : State) (cause : DesyncCause) : (s.desync cause).decoderReset :=
  State.daReset_decoderReset _

theorem State.workerExit_decoderAtPowerOn (s : State) : s.workerExit.decoderAtPowerOn :=
  ⟨⟨rfl, rfl, rfl, rfl, rfl, rfl, rfl⟩, rfl, rfl⟩

/-- The payload length depends on byte 2 alone (R134). -/
theorem payloadLen_congr {f g : Memory} (h : f.read 2 = g.read 2) : payloadLen f = payloadLen g := by
  simp only [payloadLen, h]

/-- The invariants speak of no output port, no presented command, no draw count and not of `tmo_ms`. -/
theorem State.Inv.congr {s t : State} (h : s.Inv)
    (e : t = { s with
      inbox := t.inbox, port := t.port, resp := t.resp, trace := t.trace, drawCount := t.drawCount,
      tmoMs := t.tmoMs }) : t.Inv := by
  rw [e]; exact ⟨h.demod, h.assembler, h.mailbox, h.consumers, h.arrays, h.stopped⟩

/-- A command is accepted only on the port it is legal on (R217, check 2). -/
theorem accepted_port {i : Instr} {s : State} (h : accepted i s = true) : s.port = legalPort i := by
  cases i <;> simp only [accepted, Bool.and_eq_true, decide_eq_true_iff, onConsumerPort_eq_true] at h <;>
    simp_all [legalPort, consumerIndex]

end Sys2Proof.Machine
end

