-- ==== Sys2Proof/Tests/Slice0.lean ====
section
/-! SUPPORT. Checks of the model on small states: words of the encoding, ill-formed terms, one step at a
time, and for each statement with hypotheses a state and operands that meet them. Expected values come from
spec/95_test_vectors.md and the rules named. -/

namespace Sys2Proof.Tests

open Sys2Proof Sys2Proof.Machine

/-! ### Helpers -/

/-- A RUNNING block in the reset state, a command on the sample port. -/
def running : State := { State.powerOn Config.standard with run := .running, port := .sample }

/-- The frame `9F 11 04 15 A5` of section 2.7 of the vectors. -/
def frameA : Memory := Memory.ofBytes [0x9F#8, 0x11#8, 0x04#8, 0x15#8, 0xA5#8]

/-- The frame `9F 22 04 26 1D` of section 2.7 of the vectors. -/
def frameB : Memory := Memory.ofBytes [0x9F#8, 0x22#8, 0x04#8, 0x26#8, 0x1D#8]

/-- A RUNNING block with frame A unread, a command on consumer port 0. -/
def unread : State := { running with mbReady := true, mbFrame := frameA, port := .consumer 0 }

/-- The same, consumer 0 COPIED with frame A. -/
def copied : State := unread.setConsumer 0#4 ⟨.copied, frameA⟩

/-- An `ATOMIC_TAKE` block with frame A unread. -/
def atomicUnread : State := { unread with cfg := { Config.standard with mailboxMode := .atomicTake } }

/-- A RUNNING block with the first `bs` of a frame in the buffer, `elv` and `el` as given. -/
def receiving (bs : List Byte) (elv : Bool) (el : BitVec 5) : State :=
  { running with fb := Memory.ofBytes bs, bi := BitVec.ofNat 4 bs.length, elv := elv, el := el }

/-- A field of the next state, if there is one. -/
def after {α : Type} (r : Result) (f : State → α) : Option α :=
  match r with
  | .next s => some (f s)
  | .fault _ => none
  | .refused _ => none

/-! ### Encoding (section 2.1 of the vectors; the fields of R72 to R74) -/

/-- OP 0001, V 1, RSV 000, DUR 1000. -/
theorem test_decode_sample : decode 0b00011000000000000000001111101000#32 = some (.sample 1000#24) := by decide
/-- OP 0001, V 0, RSV 000, DUR 0x123. -/
theorem test_decode_tmo : decode 0b00010000000000000000000100100011#32 = some (.tmo 0x123#24) := by decide
/-- OP 0010, RSV 0, C 15. -/
theorem test_decode_copy : decode 0b00100000000000000000000000001111#32 = some (.copy 15#4) := by decide
/-- OP 0011, RSV 0, C 1. -/
theorem test_decode_clear : decode 0b00110000000000000000000000000001#32 = some (.clear 1#4) := by decide
/-- OP 0100, RSV 0, C 2. -/
theorem test_decode_take : decode 0b01000000000000000000000000000010#32 = some (.take 2#4) := by decide
/-- OP 1000, RSV 0. -/
theorem test_decode_start : decode 0b10000000000000000000000000000000#32 = some .start := by decide
/-- OP 1001, RSV 0. -/
theorem test_decode_stop : decode 0b10010000000000000000000000000000#32 = some .stop := by decide
/-- OP 1010, MS 500. -/
theorem test_decode_setTimeout : decode 0b10100000000000000000000111110100#32 = some (.setTimeout 500#28) := by decide
/-- The reserved words of the table. -/
theorem test_decode_reserved :
    [0x00000000#32, 0x19000000#32, 0x1C000000#32, 0x20000010#32, 0x48000000#32, 0x50000000#32, 0x80000001#32,
      0x98000000#32, 0xB0000000#32, 0xF0000000#32, 0xFFFFFFFF#32].map decode = List.replicate 11 none := by decide
theorem test_encode_words :
    [Instr.sample 16777215#24, .tmo 0#24, .copy 0#4, .clear 1#4, .take 0#4, .start, .stop, .setTimeout 268435455#28].map encode =
      [0x18FFFFFF#32, 0x10000000#32, 0x20000000#32, 0x30000001#32, 0x40000000#32, 0x80000000#32, 0x90000000#32,
        0xAFFFFFFF#32] := by decide
theorem test_tableWord : decodeTableWord 32 0xA0000064 = some (.setTimeout 100#28) := by decide

/-! ### Well-formedness: each check refuses an ill-formed term -/

theorem test_config_standard_wf : Config.standard.wf := by decide
theorem test_config_noise_above_low : ¬ { Config.standard with pNoise := 201 }.wf := by decide
theorem test_config_low_above_mid : ¬ { Config.standard with pLow := 751 }.wf := by decide
theorem test_config_mid_above_high : ¬ { Config.standard with pMid := 1301 }.wf := by decide
theorem test_config_high_too_wide : ¬ { Config.standard with pHigh := 16777216 }.wf := by decide
theorem test_config_duration_too_wide : ¬ { Config.standard with durW := 25 }.wf := by decide
theorem test_config_no_consumer : ¬ { Config.standard with nConsumers := 0 }.wf := by decide
theorem test_config_too_many_consumers : ¬ { Config.standard with nConsumers := 17 }.wf := by decide
theorem test_config_zero_timeout : ¬ { Config.standard with timeoutDefaultMs := 0#28 }.wf := by decide
theorem test_copy_of_no_port : Instr.wf 2 (.copy 2#4) = false := by decide
theorem test_clear_of_no_port : Instr.wf 2 (.clear 15#4) = false := by decide
theorem test_take_of_no_port : Instr.wf 1 (.take 1#4) = false := by decide

/-! ### Operations (sections 2.2, 2.4 and 2.6 of the vectors) -/

theorem test_crc8_vectors :
    [[], [0x01#8], [0x02#8], [0x80#8], [0xFF#8], [0x9F#8], [0x02#8, 0x02#8], [0xAA#8, 0x06#8, 0xCC#8, 0x60#8]].map
      (crcOf 0xE0#8 0x00#8) = [0x00#8, 0x91#8, 0xE3#8, 0xE0#8, 0xCF#8, 0x87#8, 0x39#8, 0xC5#8] := by decide +kernel
theorem test_xor_vectors : xorOf [0xAA#8, 0x06#8, 0xCC#8] = 0x60#8 ∧ xorOf [] = 0#8 := by decide
theorem test_rev8_vectors :
    [0xF9#8, 0x01#8, 0x0F#8, 0xA5#8, 0x12#8, 0x3C#8].map rev8 = [0x9F#8, 0x80#8, 0xF0#8, 0xA5#8, 0x48#8, 0x3C#8] := by
  decide
/-- DATA len=4 data=9F AA 06 CC 60 C5: packed bytes `42 9F AA 06 CC 60 C5 00 ..`, byte 0 lowest. -/
theorem test_packed_data :
    (Response.ofFrame (Memory.ofBytes [0x9F#8, 0xAA#8, 0x06#8, 0xCC#8, 0x60#8, 0xC5#8])).packed =
      0xC560CC06AA9F42#128 := by decide
theorem test_packed_rejected : Response.rejected.packed = 0x3#128 := by decide
theorem test_bits_on_air : parityBits 0x04#8 = [false, false, true, false, false, false, false, false, true] := by
  decide
theorem test_frame_bytes :
    frameBytes Config.standard [0xAA#8, 0x06#8, 0xCC#8] = [0x9F#8, 0xAA#8, 0x06#8, 0xCC#8, 0x60#8, 0xC5#8] := by decide +kernel
theorem test_write_outside : frameA.write 15 1#8 = none := by decide
theorem test_write_zero_unlists : frameA.write 4 0#8 = some [(0, 0x9F#8), (1, 0x11#8), (2, 0x04#8), (3, 0x15#8)] := by
  decide

/-! ### Commands, one step each (sections 2.3 to 2.8 of the vectors) -/

/-- `1 2 0x003` and SAMPLE 19: unchanged, `EV_NOISE`. -/
theorem test_sample_noise :
    after (exec (.sample 19#24) { running with hb := true, bc := 2#4, acc := 3#9 })
      (fun t => (t.hb, t.bc, t.acc, t.trace)) = some (true, 2#4, 3#9, [.noise]) := by decide
/-- The last byte of `9F 02 02 39`: the eighth bit, a 0, synthesises parity and publishes. -/
theorem test_sample_completes_frame :
    after (exec (.sample 400#24)
        { receiving [0x9F#8, 0x02#8, 0x02#8] true 1#5 with hb := true, bc := 7#4, acc := 0b1001110#9 })
      (fun t => (t.mbReady, t.mbFrame.bytes.take 4, t.bi, t.trace)) =
    some (true, [0x9F#8, 0x02#8, 0x02#8, 0x39#8], 0#4, [.bit0, .synth, .byte 3#4 0x39#8, .publish]) := by decide +kernel
/-- TMO with DUR = 5 is BAD, never noise. -/
theorem test_tmo_short_duration :
    after (exec (.tmo 5#24) { running with hb := true, bc := 2#4, acc := 3#9 })
      (fun t => (t.hb, t.bc, t.acc, t.trace)) = some (false, 0#4, 0#9, [.desync .timeout]) := by decide
theorem test_tmo_while_stopping :
    after (exec (.tmo 0#24) { running with run := .stopping, bc := 1#4, mbReady := true, mbFrame := frameA })
      (fun t => (t.run, t.bc, t.mbReady, t.trace)) = some (.stopped, 0#4, false, [.exit]) := by decide
theorem test_copy_ready :
    after (exec (.copy 0#4) unread) (fun t => (t.consumer 0#4, t.mbReady, t.resp)) =
      some (⟨.copied, frameA⟩, true, some Response.ok) := by decide
theorem test_copy_of_other_port :
    after (exec (.copy 1#4) unread) (fun t => (t.resp, t.trace)) = some (some Response.rejected, [.reject]) := by decide
/-- Frame B published after the COPY of frame A: CLEAR returns A, and B is lost. -/
theorem test_clear_loses_newer_frame :
    after (exec (.clear 0#4) { copied with mbFrame := frameB })
      (fun t => (t.resp, t.mbReady, t.mbFrame, t.consumer 0#4)) =
      some (some ⟨.data, 3#4, frameA⟩, false, [], ⟨.idle, frameA⟩) := by decide
theorem test_clear_while_idle : after (exec (.clear 0#4) unread) (fun t => t.resp) = some (some Response.rejected) := by
  decide
theorem test_take_data :
    after (exec (.take 0#4) atomicUnread) (fun t => (t.resp, t.mbReady)) =
      some (some ⟨.data, 3#4, frameA⟩, false) := by decide
theorem test_take_in_two_phase : after (exec (.take 0#4) unread) (fun t => t.resp) = some (some Response.rejected) := by
  decide
theorem test_start_from_power_on :
    after (exec .start (State.powerOn Config.standard)) (fun t => (t.run, t.resp)) =
      some (.running, some Response.ok) := by decide
theorem test_start_while_stopping :
    after (exec .start { running with run := .stopping, port := .control }) (fun t => (t.run, t.resp)) =
      some (.stopping, some Response.rejected) := by decide
/-- RUNNING, `bc = 2`: kept until the exit. -/
theorem test_stop_running :
    after (exec .stop { running with port := .control, bc := 2#4 }) (fun t => (t.run, t.bc)) =
      some (.stopping, 2#4) := by decide
theorem test_stop_while_stopped :
    after (exec .stop (State.powerOn Config.standard)) (fun t => t.resp) = some (some Response.rejected) := by decide
theorem test_setTimeout_writes :
    after (exec (.setTimeout 500#28) { running with port := .control }) (fun t => t.tmoMs) = some 500#28 := by decide
theorem test_setTimeout_ignores_zero :
    after (exec (.setTimeout 0#28) { running with port := .control, tmoMs := 500#28 }) (fun t => (t.tmoMs, t.trace)) =
      some (500#28, [.tmoIgnored]) := by decide
theorem test_step_first_after_reset :
    after (step (State.reset.withFetchWord 32 0x80000000)) (fun t => (t.run, t.inbox)) = some (.running, []) := by
  decide
theorem test_step_reserved_word :
    after (step (State.reset.withFetchWord 32 0x50000000)) (fun t => t.resp) = some (some Response.rejected) := by decide
theorem test_host_start_line_zero :
    (hostStart 0 ⟨true, true, true⟩ State.reset).error = some .configError ∧
      (hostStart 41 ⟨true, true, true⟩ State.reset).error = some .configError ∧
      (hostStart 40 ⟨true, true, true⟩ State.reset).after.run = .running := by decide
/-- STOP of a stopped block fails and touches nothing; of a running one it waits for the next sample (R197). -/
theorem test_host_stop :
    (hostStop 5 [] ⟨true, true, true⟩ State.reset).map (fun r => (r.actions, r.error, r.after.run)) =
        some ([.command .stop], some .concurrencyError, .stopped) ∧
      (hostStop 5 [] ⟨true, true, true⟩ running).isNone ∧
      (hostStop 5 [presented (.tmo 0#24)] ⟨true, true, true⟩ running).map (fun r => (r.actions, r.error, r.after.run)) =
        some ([.command .stop, .disableLine 5], none, .stopped) := by decide
theorem test_host_set_timeout :
    hostSetTimeout (-5) = none ∧ hostSetTimeout 300000000 = some (.setTimeout 268435455#28) := by decide

/-! ### Witnesses: for each statement with hypotheses, terms that meet them all -/

theorem running_inv : running.Inv :=
  ⟨by decide, by decide, by decide, by decide, by decide, by decide⟩

theorem unread_inv : unread.Inv :=
  ⟨by decide, by decide +kernel, by decide +kernel, by decide, by decide, by decide⟩

theorem witness_EveryDecodedWordIsItsEncoding : decode 0xAFFFFFFF#32 = some (.setTimeout 0xFFFFFFF#28) := by decide

theorem witness_OpcodeMapSelectsEachCommand :
    rowCopy ∈ opcodeMap ∧ rowCopy.selects 0x2000000F#32 = true := by decide

theorem witness_ReservedWordsAndWrongPortsAreRejected :
    decode 0x19000000#32 = none ∧
    decode 0x80000000#32 = some .start ∧ Port.sample ≠ legalPort .start := by decide

theorem witness_ResponsePacking : (14 : Nat) < 15 := by decide

theorem witness_StepRunsDecodedCommand :
    (State.reset.withFetchWord 32 0x80000000).inbox = ⟨.control, 0x80000000#32⟩ :: [] ∧
      decode 0x80000000#32 = some .start := by decide

theorem witness_StepWaitsWithNoCommand : State.reset.inbox = [] := by decide

theorem witness_RejectedExactlyWhenNotAccepted :
    accepted (.sample 1000#24) State.reset = false ∧ accepted (.sample 1000#24) running = true ∧
    (∃ t, exec (.sample 1000#24) running = .next t) := ⟨by decide, by decide, _, rfl⟩

theorem witness_ClassifyFollowsTheBands :
    Config.standard.thresholdsOrdered ∧
    [19#24, 20#24, 199#24, 200#24, 749#24, 750#24, 1299#24, 1300#24].map (classify Config.standard true) =
      [.noise, .bad, .bad, .half, .half, .full, .full, .bad] := by decide

theorem witness_NoisePulseChangesNoRegister :
    running.port = .sample ∧ running.run = .running ∧ (19#24).toNat < running.cfg.pNoise := by decide

theorem witness_FullPulsePushesOne :
    running.port = .sample ∧ running.run = .running ∧ running.cfg.thresholdsOrdered ∧
      running.cfg.pMid ≤ (750#24).toNat ∧ (1299#24).toNat < running.cfg.pHigh ∧
      (750#24).toNat < running.cfg.pHigh := by decide

theorem witness_HalfPulsesPairIntoZero :
    running.port = .sample ∧ running.run = .running ∧ running.cfg.thresholdsOrdered ∧
      running.cfg.pLow ≤ (200#24).toNat ∧ (200#24).toNat < running.cfg.pMid ∧
      running.hb = false ∧ { running with hb := true }.hb = true := by decide

/-- `bc = 7` with `final_byte = 0`: the eighth bit, at the edge of the statement's range. -/
theorem witness_FullPulseWithinByte :
    { running with bc := 7#4 }.port = .sample ∧ { running with bc := 7#4 }.run = .running ∧
      { running with bc := 7#4 }.cfg.thresholdsOrdered ∧ running.cfg.pMid ≤ (1000#24).toNat ∧
      (1000#24).toNat < running.cfg.pHigh ∧ { running with bc := 7#4 }.bc.toNat < 8 ∧
      ¬ ({ running with bc := 7#4 }.bc = 7#4 ∧ finalByte { running with bc := 7#4 } = true) := by decide

theorem witness_SynthesisedParityAlwaysPasses :
    { receiving [0x9F#8, 0x02#8, 0x02#8] true 1#5 with bc := 7#4 }.bc = 7#4 ∧
      finalByte { receiving [0x9F#8, 0x02#8, 0x02#8] true 1#5 with bc := 7#4 } = true ∧
      { running with bc := 7#4 }.bc = 7#4 ∧ finalByte { running with bc := 7#4 } = false := by decide

theorem witness_NinthBitIsCheckedAsParity :
    { running with bc := 8#4, acc := 0xF9#9 }.bc = 8#4 ∧
      parity8 ((0xF9#9).extractLsb' 0 8) ≠ true ∧ parity8 ((0xF9#9).extractLsb' 0 8) = false := by decide

theorem witness_RevEightReversesAllBits : (7 : Nat) < 8 := by decide

theorem witness_BadDurationDesynchronises :
    running.port = .sample ∧ running.run = .running ∧ running.cfg.thresholdsOrdered ∧
      (running.cfg.pNoise ≤ (20#24).toNat ∧ (20#24).toNat < running.cfg.pLow) ∧
      running.cfg.pHigh ≤ (1300#24).toNat := by decide

theorem witness_TimeoutDesynchronises :
    running.port = .sample ∧ running.run = .running ∧
      { running with run := .stopped }.run = .stopped ∧ { running with run := .stopping }.run = .stopping := by decide

theorem witness_WorkerExitCompletesAStop :
    { running with run := .stopping }.port = .sample ∧ { running with run := .stopping }.run = .stopping := by decide

theorem witness_SyncByteIsChecked :
    running.bi = 0#4 ∧ 0x9E#8 ≠ running.cfg.pSync ∧ 0x9F#8 = running.cfg.pSync := by decide

theorem witness_CommitWritesOneByte : after (commit 0x9F#8 running) (fun t => decide (t.bi ≠ 0#4)) = some true := by
  decide

/-- `9F 01` and byte 2 = 0x1A (length 13) resets; `9F 5A` and 0x18 (length 12) is held. -/
theorem witness_LengthIsBounded :
    2 ≤ (receiving [0x9F#8, 0x01#8] false 0#5).bi.toNat ∧ (receiving [0x9F#8, 0x01#8] false 0#5).bi.toNat < 15 ∧
      12 < (payloadLen ((receiving [0x9F#8, 0x01#8] false 0#5).fb.set 2 0x1A#8)).toNat ∧
      (payloadLen ((receiving [0x9F#8, 0x5A#8] false 0#5).fb.set 2 0x18#8)).toNat ≤ 12 ∧
      (receiving [0x9F#8, 0x5A#8] false 0#5).bi.toNat ≤
        (payloadLen ((receiving [0x9F#8, 0x5A#8] false 0#5).fb.set 2 0x18#8)).toNat := by decide

/-- `9F 11 04` and XOR byte 0x14 (mismatch) or 0x15 (match), `L = 2`. -/
theorem witness_XorChecksumIsChecked :
    2 ≤ (receiving [0x9F#8, 0x11#8, 0x04#8] true 2#5).bi.toNat ∧
      (payloadLen ((receiving [0x9F#8, 0x11#8, 0x04#8] true 2#5).fb.set 3 0x14#8)).toNat ≤ 12 ∧
      (receiving [0x9F#8, 0x11#8, 0x04#8] true 2#5).bi.toNat = 2 + 1 ∧
      xor8 ((receiving [0x9F#8, 0x11#8, 0x04#8] true 2#5).fb.set 3 0x14#8) 1 2 ≠ 0x14#8 ∧
      xor8 ((receiving [0x9F#8, 0x11#8, 0x04#8] true 2#5).fb.set 3 0x15#8) 1 2 = 0x15#8 := by decide

/-- `9F 11 04 15` and CRC byte 0xA4 (mismatch), `L = 2`. -/
theorem witness_CrcMismatchDesynchronises :
    2 ≤ (receiving [0x9F#8, 0x11#8, 0x04#8, 0x15#8] true 2#5).bi.toNat ∧
      (receiving [0x9F#8, 0x11#8, 0x04#8, 0x15#8] true 2#5).bi.toNat = 2 + 2 ∧
      xor8 ((receiving [0x9F#8, 0x11#8, 0x04#8, 0x15#8] true 2#5).fb.set 4 0xA4#8) 1 2 = 0x15#8 ∧
      crc8 Config.standard ((receiving [0x9F#8, 0x11#8, 0x04#8, 0x15#8] true 2#5).fb.set 4 0xA4#8) 1 3 ≠ 0xA4#8 := by
  decide +kernel

/-- `9F 11 04 15` and CRC byte 0xA5, `L = 2`. -/
theorem witness_MatchingFrameIsPublished :
    2 ≤ (receiving [0x9F#8, 0x11#8, 0x04#8, 0x15#8] true 2#5).bi.toNat ∧
      payloadLen ((receiving [0x9F#8, 0x11#8, 0x04#8, 0x15#8] true 2#5).fb.set 4 0xA5#8) = 2#5 ∧
      xor8 ((receiving [0x9F#8, 0x11#8, 0x04#8, 0x15#8] true 2#5).fb.set 4 0xA5#8) 1 2 = 0x15#8 ∧
      crc8 Config.standard ((receiving [0x9F#8, 0x11#8, 0x04#8, 0x15#8] true 2#5).fb.set 4 0xA5#8) 1 3 = 0xA5#8 ∧
      (receiving [0x9F#8, 0x11#8, 0x04#8, 0x15#8] true 2#5).cfg.publishCanFail = false := by decide +kernel

theorem witness_XorOfARange : (0 : Nat) < 1 ∧ (1 : Nat) ≤ 1 := by decide

theorem witness_PublishOutcomeIsAFreeDraw :
    running.cfg.publishCanFail = false ∧
      { running with cfg := { Config.standard with publishCanFail := true } }.cfg.publishCanFail = true := by decide

/-- Each ground of rejection, then the two accepted clauses, consumer `N_CONSUMERS - 1` among them. -/
theorem witness_CopyTakesTheSlot :
    atomicUnread.cfg.mailboxMode ≠ .twoPhase ∧ unread.cfg.nConsumers ≤ (2#4).toNat ∧
      unread.port ≠ .consumer (1#4).toNat ∧ (copied.consumer 0#4).ph = .copied ∧
      unread.cfg.mailboxMode = .twoPhase ∧ (1#4).toNat < unread.cfg.nConsumers ∧
      { unread with port := .consumer 1 }.port = .consumer (1#4).toNat ∧ (unread.consumer 1#4).ph = .idle ∧
      unread.mbReady = true ∧ { unread with mbReady := false }.mbReady = false := by decide

theorem witness_ClearReturnsTheCopy :
    atomicUnread.cfg.mailboxMode ≠ .twoPhase ∧ unread.cfg.nConsumers ≤ (2#4).toNat ∧
      copied.port ≠ .consumer (1#4).toNat ∧ (unread.consumer 0#4).ph = .idle ∧
      copied.cfg.mailboxMode = .twoPhase ∧ (0#4).toNat < copied.cfg.nConsumers ∧
      copied.port = .consumer (0#4).toNat ∧ (copied.consumer 0#4).ph = .copied := by decide

theorem witness_TakeReturnsTheSlot :
    unread.cfg.mailboxMode ≠ .atomicTake ∧ atomicUnread.cfg.nConsumers ≤ (2#4).toNat ∧
      atomicUnread.port ≠ .consumer (1#4).toNat ∧ atomicUnread.cfg.mailboxMode = .atomicTake ∧
      (0#4).toNat < atomicUnread.cfg.nConsumers ∧ atomicUnread.port = .consumer (0#4).toNat ∧
      atomicUnread.mbReady = true ∧ { atomicUnread with mbReady := false }.mbReady = false := by decide

theorem witness_LengthReturnedIsOneToThirteen :
    FrameValid Config.standard frameA ∧ FrameValid Config.standard (Memory.ofBytes [0x9F#8]) ∧
      FrameValid Config.standard (Memory.ofBytes [0x9F#8, 0x5A#8, 0x18#8, 0x01#8, 0x02#8, 0x03#8, 0x04#8, 0x05#8,
        0x06#8, 0x07#8, 0x08#8, 0x09#8, 0x0A#8, 0x49#8, 0x9F#8]) := by decide +kernel

theorem witness_FramePublishedInTheGapIsLost :
    copied.cfg.publishCanFail = false ∧ copied.cfg.mailboxMode = .twoPhase ∧
      (0#4).toNat < copied.cfg.nConsumers ∧ copied.port = .consumer (0#4).toNat ∧
      (copied.consumer 0#4).ph = .copied ∧ ∃ t, exec (.clear 0#4) (publish frameB copied) = .next t :=
  ⟨by decide, by decide, by decide, by decide, by decide, _, rfl⟩

theorem witness_TwoConsumersMayReturnOneFrame :
    (0#4) ≠ (1#4) ∧ unread.cfg.mailboxMode = .twoPhase ∧ (0#4).toNat < unread.cfg.nConsumers ∧
      (1#4).toNat < unread.cfg.nConsumers ∧ unread.mbReady = true ∧ (unread.consumer 0#4).ph = .idle ∧
      (unread.consumer 1#4).ph = .idle := by decide

theorem witness_AtomicTakeIsATwoPhaseRun :
    TwoPhaseTwin atomicUnread unread ∧ (0#4).toNat < atomicUnread.cfg.nConsumers ∧
      (∃ t, getDecodedData 0#4 [] atomicUnread = .next t) ∧
      (∀ c, decode 0x80000000#32 ≠ some (.copy c) ∧ decode 0x80000000#32 ≠ some (.clear c) ∧
        decode 0x80000000#32 ≠ some (.take c)) ∧
      ∃ t, issue ⟨.control, 0x80000000#32⟩ atomicUnread = .next t :=
  ⟨⟨by decide, by decide, by decide⟩, by decide, ⟨_, rfl⟩, by decide, ⟨_, rfl⟩⟩

theorem witness_StartInitialisesAndRuns :
    State.reset.port = .control ∧ State.reset.run = .stopped ∧
      { running with port := .control }.port = .control ∧ running.run ≠ .stopped := by decide

theorem witness_StopRequestsTermination :
    { running with port := .control }.port = .control ∧ running.run = .running ∧
      State.reset.run ≠ .running := by decide

theorem witness_SetTimeoutWritesNonZero : State.reset.port = .control ∧ 1#28 ≠ 0#28 := by decide

theorem witness_PowerOnValues : State.reset = State.powerOn Config.standard := rfl

theorem witness_OnlyStartAndTimeoutActAfterPowerOn :
    (Instr.copy 1#4).wf Config.standard.nConsumers = true ∧ Instr.copy 1#4 ≠ .start ∧
      (∃ t, issue (presented (.copy 1#4)) (State.powerOn Config.standard) = .next t) ∧
      Instr.stop ≠ .start ∧ (∃ t, issue (presented .stop) (State.powerOn Config.standard) = .next t) :=
  ⟨by decide, by decide, ⟨_, rfl⟩, by decide, ⟨_, rfl⟩⟩

theorem witness_EveryStepKeepsTheInvariants : running.Inv ∧ ∃ t, step running = .next t := ⟨running_inv, _, rfl⟩

theorem witness_NoStepStopsTheBlock : unread.Inv := unread_inv

/-- The state before the last pulse of `9F 02 02 39`, that pulse presented. -/
def lastPulse : State :=
  { receiving [0x9F#8, 0x02#8, 0x02#8] true 1#5 with
    hb := true, bc := 7#4, acc := 0b1001110#9, inbox := [⟨.sample, 0x18000190#32⟩] }

theorem lastPulse_inv : lastPulse.Inv :=
  ⟨by decide, by decide, by decide, by decide, by decide, by decide⟩

theorem witness_PublishedFramesAreValid :
    lastPulse.Inv ∧ lastPulse.inbox ≠ [] ∧
      after (step lastPulse) (fun t => decide (Event.publish ∈ t.trace)) = some true :=
  ⟨lastPulse_inv, by decide, by decide +kernel⟩

theorem witness_TimeoutWrittenOnlyBySetTimeout : ∃ t, exec (.setTimeout 5#28) State.reset = .next t := ⟨_, rfl⟩

theorem witness_ConsumerRegistersArePrivate : ∃ t, exec (.copy 0#4) unread = .next t := ⟨_, rfl⟩

theorem witness_SlotFilledOnlyByPublish :
    lastPulse.trace = [] ∧ after (exec (.sample 400#24) lastPulse) (fun t => t.mbReady) = some true := by decide +kernel

theorem witness_ConsumerCommandsLeaveTheDecoder : ∃ t, exec (.take 0#4) atomicUnread = .next t := ⟨_, rfl⟩

theorem witness_SamplePortLeavesConsumersAndHost : ∃ t, exec (.sample 1000#24) running = .next t := ⟨_, rfl⟩

theorem witness_SampleStoresOnlyAtTheByteIndex :
    after (exec (.sample 400#24) { running with hb := true, bc := 8#4, acc := 0xF9#9 }) (fun t => (t.bi, t.fb)) =
      some (1#4, [(0, 0x9F#8)]) := by decide

theorem witness_DesyncTouchesOnlyTheDecoder :
    running.trace = [] ∧
      after (exec (.sample 20#24) running) (fun t => decide (Event.desync .duration ∈ t.trace)) = some true := by decide

theorem witness_AtMostOneDesyncPerCommand :
    lastPulse.trace = [] ∧
      after (exec (.sample 400#24) lastPulse) (fun t => decide (Event.publish ∈ t.trace)) = some true := by decide +kernel

theorem witness_ConfigurationIsFixed : ∃ t, step lastPulse = .next t := ⟨_, rfl⟩

theorem witness_ByteSentWithParityIsCommitted :
    running.port = .sample ∧ running.run = .running ∧ running.hb = false ∧ running.bc = 0#4 ∧ running.acc = 0#9 ∧
      finalByte running = false ∧ classify running.cfg true 1000#24 = .full ∧
      classify running.cfg true 400#24 = .half := by decide

theorem witness_LastByteSentWithoutParityIsCommitted :
    (receiving [0x9F#8, 0x02#8, 0x02#8] true 1#5).port = .sample ∧
      (receiving [0x9F#8, 0x02#8, 0x02#8] true 1#5).run = .running ∧
      (receiving [0x9F#8, 0x02#8, 0x02#8] true 1#5).hb = false ∧
      (receiving [0x9F#8, 0x02#8, 0x02#8] true 1#5).bc = 0#4 ∧
      (receiving [0x9F#8, 0x02#8, 0x02#8] true 1#5).acc = 0#9 ∧
      finalByte (receiving [0x9F#8, 0x02#8, 0x02#8] true 1#5) = true ∧
      classify Config.standard true 1000#24 = .full ∧ classify Config.standard true 400#24 = .half := by decide

/-- Payloads of length 0, 1 and 12. -/
theorem witness_EveryFrameSentIsPublished :
    running.port = .sample ∧ running.run = .running ∧ running.decoderReset ∧ running.cfg.publishCanFail = false ∧
      framePayloadOk running.cfg [] ∧ framePayloadOk running.cfg [0x02#8] ∧
      framePayloadOk running.cfg [0x5A#8, 0x18#8, 0x01#8, 0x02#8, 0x03#8, 0x04#8, 0x05#8, 0x06#8, 0x07#8, 0x08#8,
        0x09#8, 0x0A#8] ∧
      classify running.cfg true 1000#24 = .full ∧ classify running.cfg true 400#24 = .half := by decide +kernel

theorem witness_AdapterSaturatesDurations :
    Config.standard.thresholdsOrdered ∧ Config.standard.durW ≤ durFieldWidth ∧
      (16777215 : Nat) < 2 ^ Config.standard.durW ∧ 2 ^ Config.standard.durW ≤ (16777216 : Nat) := by decide

/-- Line ids 0, 1, 40 and 41, and one answer of the collaborators for each clause. -/
theorem witness_HostStartFollowsItsContract :
    0 < 1 ∧ 40 < State.reset.cfg.pLineMax ∧ State.reset.cfg.pLineMax ≤ 41 ∧ State.reset.run = .stopped ∧
      running.run ≠ .stopped ∧ (Collaborators.mk false true true).enableOk = false ∧
      (Collaborators.mk true false true).spawnOk = false ∧
      (Collaborators.mk true true true).enableOk = true ∧ (Collaborators.mk true true true).spawnOk = true := by decide

end Sys2Proof.Tests
end

section
/-! Which effect an executed command can have: the case lemmas of the commands put together, so that a proof
about every command is one case split. -/

namespace Sys2Proof.Machine

/-- `CommandEffect s i t`: the state `t` is one that command `i` may leave `s` in, with what the acceptance
checks (R217) and the tests of the meanings say of `s` in that case. -/
inductive CommandEffect (s : State) : Instr → State → Prop where
  | reject (i : Instr) : CommandEffect s i s.reject
  | exit {i : Instr} : legalPort i = .sample → s.port = .sample → s.run = .stopping →
      CommandEffect s i (s.respond Response.ok).workerExit
  | samplePulse {d : Dur} {t : State} : s.port = .sample → s.run = .running →
      pulse .duration (classify s.cfg true d) (s.respond Response.ok) = .next t → CommandEffect s (.sample d) t
  | timeout (d : Dur) : s.port = .sample → s.run = .running →
      CommandEffect s (.tmo d) ((s.respond Response.ok).desync .timeout)
  | nodata {i : Instr} {c : ConsumerNo} : i = .copy c ∨ i = .take c → s.onConsumerPort c = true →
      s.mbReady = false → CommandEffect s i ((s.respond Response.nodata).emit .nodata)
  | copy {c : ConsumerNo} : s.cfg.mailboxMode = .twoPhase → s.onConsumerPort c = true →
      (s.consumer c).ph = .idle → s.mbReady = true →
      CommandEffect s (.copy c) (((s.setConsumer c ⟨.copied, s.mbFrame⟩).respond Response.ok).emit .copy)
  | clear {c : ConsumerNo} : s.cfg.mailboxMode = .twoPhase → s.onConsumerPort c = true →
      (s.consumer c).ph = .copied →
      CommandEffect s (.clear c) (((s.clearMailbox.setConsumer c ⟨.idle, (s.consumer c).cb⟩).respond
        (Response.ofFrame (s.consumer c).cb)).emit .clear)
  | take {c : ConsumerNo} : s.cfg.mailboxMode = .atomicTake → s.onConsumerPort c = true → s.mbReady = true →
      CommandEffect s (.take c) ((s.clearMailbox.respond (Response.ofFrame s.mbFrame)).emit .take)
  | start : s.port = .control → s.run = .stopped → CommandEffect s .start
      ((({ s.daReset.clearMailbox with run := .running }).respond Response.ok).emit .start)
  | stop : s.port = .control → s.run = .running →
      CommandEffect s .stop ((({ s with run := .stopping }).respond Response.ok).emit .stopReq)
  | timeoutIgnored : s.port = .control →
      CommandEffect s (.setTimeout 0#28) ((s.respond Response.ok).emit .tmoIgnored)
  | timeoutSet {ms : Millis} : s.port = .control → ms ≠ 0#28 →
      CommandEffect s (.setTimeout ms) ((({ s with tmoMs := ms }).respond Response.ok).emit .tmoSet)

theorem CommandEffect.of_execSample {d : Dur} {s t : State} (h : execSample d s = .next t) :
    CommandEffect s (.sample d) t := by
  unfold execSample at h
  rcases samplePort_cases .duration (classify s.cfg true d) s with ⟨-, e⟩ | ⟨hp, hr, e⟩ | ⟨hp, hr, e⟩ <;>
    rw [e] at h
  · cases h; exact .reject _
  · cases h; exact .exit rfl hp hr
  · exact .samplePulse hp hr h

theorem CommandEffect.of_execTmo {d : Dur} {s t : State} (h : execTmo d s = .next t) :
    CommandEffect s (.tmo d) t := by
  unfold execTmo at h
  rcases samplePort_cases .timeout (classify s.cfg false d) s with ⟨-, e⟩ | ⟨hp, hr, e⟩ | ⟨hp, hr, e⟩ <;>
    rw [e] at h <;> cases h
  · exact .reject _
  · exact .exit rfl hp hr
  · exact .timeout d hp hr

theorem CommandEffect.of_execCopy {c : ConsumerNo} {s t : State} (h : execCopy c s = .next t) :
    CommandEffect s (.copy c) t := by
  rcases execCopy_cases c s with e | ⟨hm, hp, hi, ⟨hr, e⟩ | ⟨hr, e⟩⟩ <;> rw [e] at h <;> cases h
  · exact .reject _
  · exact .nodata (.inl rfl) hp hr
  · exact .copy hm hp hi hr

theorem CommandEffect.of_execClear {c : ConsumerNo} {s t : State} (h : execClear c s = .next t) :
    CommandEffect s (.clear c) t := by
  rcases execClear_cases c s with e | ⟨hm, hp, hc, e⟩ <;> rw [e] at h <;> cases h
  · exact .reject _
  · exact .clear hm hp hc

theorem CommandEffect.of_execTake {c : ConsumerNo} {s t : State} (h : execTake c s = .next t) :
    CommandEffect s (.take c) t := by
  rcases execTake_cases c s with e | ⟨hm, hp, ⟨hr, e⟩ | ⟨hr, e⟩⟩ <;> rw [e] at h <;> cases h
  · exact .reject _
  · exact .nodata (.inr rfl) hp hr
  · exact .take hm hp hr

theorem CommandEffect.of_execStart {s t : State} (h : execStart s = .next t) : CommandEffect s .start t := by
  rcases execStart_cases s with e | ⟨hp, hr, e⟩ <;> rw [e] at h <;> cases h
  · exact .reject _
  · exact .start hp hr

theorem CommandEffect.of_execStop {s t : State} (h : execStop s = .next t) : CommandEffect s .stop t := by
  rcases execStop_cases s with e | ⟨hp, hr, e⟩ <;> rw [e] at h <;> cases h
  · exact .reject _
  · exact .stop hp hr

theorem CommandEffect.of_execSetTimeout {ms : Millis} {s t : State} (h : execSetTimeout ms s = .next t) :
    CommandEffect s (.setTimeout ms) t := by
  rcases execSetTimeout_cases ms s with e | ⟨hp, ⟨h0, e⟩ | ⟨h0, e⟩⟩ <;> rw [e] at h <;> cases h
  · exact .reject _
  · subst h0; exact .timeoutIgnored hp
  · exact .timeoutSet hp h0

/-- Every next state of a command is one of the effects above. -/
theorem CommandEffect.of_exec {i : Instr} {s t : State} (h : exec i s = .next t) : CommandEffect s i t := by
  cases i with
  | sample d => exact .of_execSample h
  | tmo d => exact .of_execTmo h
  | copy c => exact .of_execCopy h
  | clear c => exact .of_execClear h
  | take c => exact .of_execTake h
  | start => exact .of_execStart h
  | stop => exact .of_execStop h
  | setTimeout ms => exact .of_execSetTimeout h

end Sys2Proof.Machine
end

section
/-! The invariants of R38 are kept by every step. The idea: the invariants split into those of the mailbox and
the consumer registers, which only whole commands touch, and those of the decoder, which every reset restores;
between the write of a commit and the end of its checks the decoder meets the weaker `State.Written`. -/

namespace Sys2Proof.Machine

/-! ### The mailbox and the consumer registers -/

/-- What `State.Inv` says of the mailbox and the consumer registers. -/
structure State.SharedInv (s : State) : Prop where
  mailbox : s.mailboxOk
  consumers : s.consumersOk
  mbFrame_wf : s.mbFrame.wf
  cb_wf : ∀ c : ConsumerNo, (s.consumer c).cb.wf
  stopped : s.run = .stopped → s.mbReady = false ∧ s.mbFrame = []

theorem State.Inv.shared {s : State} (h : s.Inv) : s.SharedInv := by
  obtain ⟨-, hmb, hcb⟩ := h.arrays
  exact ⟨h.mailbox, h.consumers, hmb, hcb, fun hs => (h.stopped hs).2⟩

theorem State.SharedInv.congr {s t : State} (h : s.SharedInv) (f : ProducerFrame s t)
    (hr : t.mbReady = s.mbReady) (hf : t.mbFrame = s.mbFrame) : t.SharedInv := by
  have hc : ∀ c, t.consumer c = s.consumer c := State.consumer_congr f.consumers
  exact ⟨by simpa only [State.mailboxOk, f.cfg, hr, hf] using h.mailbox,
    by simpa only [State.consumersOk, f.cfg, hc] using h.consumers,
    by simpa only [hf] using h.mbFrame_wf,
    by simpa only [hc] using h.cb_wf,
    by simpa only [f.run, hr, hf] using h.stopped⟩

/-- An emptied slot meets its clauses whatever `run` is. -/
theorem State.SharedInv.clearMailbox {s : State} (h : s.SharedInv) : s.clearMailbox.SharedInv :=
  ⟨⟨fun _ _ _ => rfl, fun hr => by simp at hr⟩, h.consumers, Memory.wf_nil, h.cb_wf, fun _ => ⟨rfl, rfl⟩⟩

theorem State.SharedInv.deliver {s : State} {f : Memory} (h : s.SharedInv) (hrun : s.run ≠ .stopped)
    (hv : FrameValid s.cfg f) (hf : f.wf) : (deliver f s).SharedInv :=
  ⟨⟨fun hr => by simp at hr, fun _ => hv⟩, h.consumers, hf, h.cb_wf, fun hs => absurd hs hrun⟩

theorem State.SharedInv.publish {s : State} {f : Memory} (h : s.SharedInv) (hrun : s.run ≠ .stopped)
    (hv : FrameValid s.cfg f) (hf : f.wf) : (publish f s).SharedInv := by
  have hdraw : ({ s with drawCount := s.drawCount + 1 } : State).SharedInv :=
    h.congr ⟨rfl, rfl, rfl, rfl, rfl, rfl, rfl⟩ rfl rfl
  rcases publish_cases f s with e | e | e <;> rw [e]
  · exact h.deliver hrun hv hf
  · exact hdraw.deliver hrun hv hf
  · exact hdraw.congr ⟨rfl, rfl, rfl, rfl, rfl, rfl, rfl⟩ rfl rfl

/-! ### The decoder -/

theorem State.demodOk_of_reset {s : State} (hbc : s.bc = 0#4) (hacc : s.acc = 0#9) : s.demodOk := by
  simp [State.demodOk, hbc, hacc]

/-- A decoder at its reset values meets its clauses (R141). -/
theorem State.SharedInv.inv_of_decoderReset {s : State} (h : s.SharedInv) (hd : s.decoderReset) : s.Inv := by
  have ⟨_, hbc, hacc, hbi, hfb, helv, _⟩ := hd
  refine ⟨State.demodOk_of_reset hbc hacc, ?_, h.mailbox, h.consumers,
    ⟨hfb ▸ Memory.wf_nil, h.mbFrame_wf, h.cb_wf⟩, fun hs => ⟨hd, h.stopped hs⟩⟩
  simp [State.assemblerOk, hbi, hfb, helv]

theorem State.SharedInv.inv_daReset {s : State} (h : s.SharedInv) : s.daReset.Inv :=
  State.SharedInv.inv_of_decoderReset (h.congr ⟨rfl, rfl, rfl, rfl, rfl, rfl, rfl⟩ rfl rfl) s.daReset_decoderReset

theorem State.SharedInv.inv_desync {s : State} (h : s.SharedInv) (cause : DesyncCause) : (s.desync cause).Inv :=
  State.SharedInv.inv_of_decoderReset (h.congr (.desync s cause) rfl rfl) (s.desync_decoderReset cause)

/-- The worker's exit leaves the whole decoder and the slot at power-on (R192). -/
theorem State.SharedInv.inv_workerExit {s : State} (h : s.SharedInv) : s.workerExit.Inv :=
  State.SharedInv.inv_of_decoderReset
    ⟨h.clearMailbox.mailbox, h.consumers, Memory.wf_nil, h.cb_wf, fun _ => ⟨rfl, rfl⟩⟩
    s.workerExit_decoderAtPowerOn.1

/-- A valid frame is published and the decoder reset, whatever the publish's outcome (R140, R170). -/
theorem State.SharedInv.inv_frameComplete {s : State} (h : s.SharedInv) (hrun : s.run ≠ .stopped)
    (hv : FrameValid s.cfg s.fb) (hf : s.fb.wf) : (frameComplete s).Inv :=
  (h.publish hrun hv hf).inv_daReset

/-! ### The commit of a byte -/

/-- The counters `bc` and `bi` count without wrapping where the invariants hold. -/
theorem toNat_add_one {x : BitVec 4} (h : x.toNat < 15) : (x + 1#4).toNat = x.toNat + 1 :=
  BitVec.toNat_add_of_lt (by simpa using by omega)

/-- A state between the write of a commit (R131) and its checks: the demodulator is reset, and the write index
may be one past the frame. -/
structure State.Written (s : State) : Prop where
  shared : s.SharedInv
  notStopped : s.run ≠ .stopped
  bc : s.bc = 0#4
  acc : s.acc = 0#9
  fb_wf : s.fb.wf
  bi_pos : 1 ≤ s.bi.toNat
  bi_le : s.bi.toNat ≤ (payloadLen s.fb).toNat + 3
  elv : s.bi.toNat ≤ 2 → s.elv = false
  zeros : ∀ i < frameCap, s.bi.toNat ≤ i → s.fb.read i = 0#8
  sync : 2 ≤ s.bi.toNat → s.fb.read 0 = s.cfg.pSync

/-- The write of a commit, from a state that meets the invariants. From byte 3 on the length in byte 2 is not
overwritten, so the bound that `el` gives `bi` stays one on the length in the buffer. -/
theorem State.Inv.written {s : State} (h : s.Inv) (hrun : s.run ≠ .stopped) (hbc : s.bc = 0#4) (hacc : s.acc = 0#9)
    (b : Byte) : ({ s with fb := s.fb.set s.bi.toNat b, bi := s.bi + 1#4 } : State).Written := by
  obtain ⟨hbi, helv, hlen, hzero, hsync⟩ := h.assembler
  have hfb : s.fb.wf := h.arrays.1
  have hnext : (s.bi + 1#4).toNat = s.bi.toNat + 1 := toNat_add_one (by omega)
  have hlt : s.bi.toNat < frameCap := by simp only [frameCap]; omega
  refine ⟨h.shared.congr ⟨rfl, rfl, rfl, rfl, rfl, rfl, rfl⟩ rfl rfl, hrun, hbc, hacc, Memory.wf_set hfb hlt b,
    ?_, ?_, ?_, ?_, ?_⟩ <;> simp only [hnext]
  case refine_1 => omega
  case refine_2 =>
    by_cases h3 : 3 ≤ s.bi.toNat
    · obtain ⟨hel, -, hle⟩ := hlen (helv.mpr h3)
      have hkept : payloadLen (s.fb.set s.bi.toNat b) = payloadLen s.fb :=
        payloadLen_congr (Memory.read_set_other s.fb b (by omega))
      rw [hkept, ← hel]; omega
    · omega
  case refine_3 =>
    intro h2
    exact Bool.eq_false_iff.mpr fun he => by have := helv.mp he; omega
  case refine_4 =>
    intro i hi hle
    rw [Memory.read_set_other s.fb b (by omega)]
    exact hzero i hi (by omega)
  case refine_5 =>
    intro h2
    rw [Memory.read_set_other s.fb b (by omega)]
    exact hsync (by omega)

/-- Fewer than three bytes and a sync byte that matches: no check applies (R133). -/
theorem State.Written.inv_of_short {s : State} (h : s.Written) (hbi : s.bi.toNat ≤ 2)
    (hsync : s.bi = 1#4 → s.fb.read 0 = s.cfg.pSync) : s.Inv := by
  have helv : s.elv = false := h.elv hbi
  refine ⟨State.demodOk_of_reset h.bc h.acc, ⟨by omega, ?_, ?_, h.zeros, fun h1 => ?_⟩, h.shared.mailbox,
    h.shared.consumers, ⟨h.fb_wf, h.shared.mbFrame_wf, h.shared.cb_wf⟩, fun hs => absurd hs h.notStopped⟩
  · simp only [helv, Bool.false_eq_true, false_iff]; omega
  · simp [helv]
  · by_cases h2 : 2 ≤ s.bi.toNat
    · exact h.sync h2
    · exact hsync (BitVec.eq_of_toNat_eq (by simpa using by omega))

theorem State.Written.shared_setLength {s : State} (h : s.Written) (l : BitVec 5) : (setLength l s).SharedInv :=
  h.shared.congr (.setLength l s) (by simp) (by simp)

/-- A frame still incomplete holds its length (R134). -/
theorem State.Written.inv_setLength {s : State} (h : s.Written) (hbi : 2 < s.bi.toNat)
    (hl : (payloadLen s.fb).toNat ≤ lenMax) (hle : s.bi.toNat ≤ (payloadLen s.fb).toNat + 2) :
    (setLength (payloadLen s.fb) s).Inv := by
  have hs := h.shared_setLength (payloadLen s.fb)
  refine ⟨State.demodOk_of_reset (by simpa using h.bc) (by simpa using h.acc), ?_, hs.mailbox, hs.consumers,
    ⟨by simpa using h.fb_wf, hs.mbFrame_wf, hs.cb_wf⟩, fun hr => absurd (by simpa using hr) h.notStopped⟩
  simp only [State.assemblerOk, setLength_bi, setLength_elv, setLength_el, setLength_fb, setLength_cfg, lenMax,
    frameCap, true_iff, forall_const] at hl ⊢
  exact ⟨by omega, hbi, ⟨trivial, hl, hle⟩, h.zeros, fun _ => h.sync (by omega)⟩

/-- A frame whose CRC byte is in and whose checksums match is valid (R140): no byte past the CRC was written. -/
theorem State.Written.frameValid {s : State} (h : s.Written) (hl : (payloadLen s.fb).toNat ≤ lenMax)
    (hlt : (payloadLen s.fb).toNat + 2 < s.bi.toNat)
    (hx : xor8 s.fb 1 (payloadLen s.fb).toNat = s.fb.read ((payloadLen s.fb).toNat + 1))
    (hc : crc8 s.cfg s.fb 1 ((payloadLen s.fb).toNat + 1) = s.fb.read ((payloadLen s.fb).toNat + 2)) :
    FrameValid s.cfg s.fb := by
  have hbi := h.bi_le
  exact ⟨h.sync (by omega), hl, hx, hc, fun i hi hgt => h.zeros i hi (by omega)⟩

theorem State.Written.inv_checkLength {s : State} (h : s.Written) (hbi : 2 < s.bi.toNat) : (checkLength s).Inv := by
  have hs := h.shared_setLength (payloadLen s.fb)
  rcases checkLength_cases s with ⟨-, e⟩ | ⟨hl, ⟨-, -, e⟩ | ⟨hlt, hx, ⟨-, e⟩ | ⟨hc, e⟩⟩ | ⟨hle, -, e⟩⟩ <;> rw [e]
  · exact h.shared.inv_desync _
  · exact hs.inv_desync _
  · exact hs.inv_desync _
  · exact hs.inv_frameComplete (by simpa using h.notStopped) (by simpa using h.frameValid hl hlt hx hc)
      (by simpa using h.fb_wf)
  · exact h.inv_setLength hbi hl hle

theorem State.Written.inv_checkCommit {s : State} (h : s.Written) : (checkCommit s).Inv := by
  rcases checkCommit_cases s with ⟨-, -, e⟩ | ⟨hbi, e⟩ | ⟨hbi, hsync, e⟩ <;> rw [e]
  · exact h.shared.inv_desync _
  · exact h.inv_checkLength hbi
  · exact h.inv_of_short hbi hsync

theorem State.Inv.commit {s t : State} {b : Byte} (h : s.Inv) (hrun : s.run ≠ .stopped) (hbc : s.bc = 0#4)
    (hacc : s.acc = 0#9) (hc : commit b s = .next t) : t.Inv := by
  obtain ⟨-, rfl⟩ := commit_eq_next.mp hc
  exact (h.written hrun hbc hacc b).inv_checkCommit

/-! ### The demodulator -/

/-- `t` is `s` but for the demodulator's registers and the events. -/
def DemodOnly (s t : State) : Prop :=
  t = { s with hb := t.hb, bc := t.bc, acc := t.acc, trace := t.trace }

theorem DemodOnly.appendBit (b : Bool) (s : State) : DemodOnly s (Machine.appendBit b s) := rfl

theorem DemodOnly.synthParity_appendBit (b : Bool) (s : State) :
    DemodOnly s (synthParity (Machine.appendBit b s)) := rfl

theorem DemodOnly.demodReset_emit {s t : State} (h : DemodOnly s t) (e : Event) :
    DemodOnly s (t.demodReset.emit e) := by
  unfold DemodOnly at h ⊢
  rw [h]; rfl

theorem DemodOnly.producerFrame {s t : State} (h : DemodOnly s t) : ProducerFrame s t := by
  rw [h]; exact ⟨rfl, rfl, rfl, rfl, rfl, rfl, rfl⟩

/-- While the block is not STOPPED the invariants ask of the demodulator's registers clauses (1) and (2) alone. -/
theorem State.Inv.of_demodOnly {s t : State} (h : s.Inv) (hrun : s.run ≠ .stopped) (ht : DemodOnly s t)
    (hd : t.demodOk) : t.Inv := by
  rw [ht] at hd ⊢
  exact ⟨hd, h.assembler, h.mailbox, h.consumers, h.arrays, fun hs => absurd hs hrun⟩

theorem State.Inv.completeByte {s t u : State} (h : s.Inv) (hrun : s.run ≠ .stopped) (hu : DemodOnly s u)
    (hc : completeByte u = .next t) : t.Inv := by
  have hf := hu.producerFrame
  rcases completeByte_cases u with ⟨-, e⟩ | ⟨-, e⟩ <;> rw [e] at hc
  · cases hc
    exact (h.shared.congr hf (by rw [hu]) (by rw [hu])).inv_desync _
  · refine State.Inv.commit ?_ (by simpa [hf.run] using hrun) rfl rfl hc
    exact h.of_demodOnly hrun (hu.demodReset_emit _) (State.demodOk_of_reset rfl rfl)

/-- The bits held grow by one (R25). -/
theorem shiftIn_lt {acc : BitVec 9} {n : Nat} (b : Bool) (h : acc.toNat < 2 ^ n) :
    (shiftIn acc b).toNat < 2 ^ (n + 1) := by
  have hbit : ((BitVec.ofBool b).setWidth 9).toNat < 2 ^ (n + 1) := by
    have : 0 < 2 ^ n := by positivity
    cases b <;> simp [pow_succ]
    omega
  have hacc : (acc <<< 1).toNat < 2 ^ (n + 1) := by
    rw [BitVec.toNat_shiftLeft, Nat.shiftLeft_eq, pow_succ]
    exact (Nat.mod_le _ _).trans_lt (by omega)
  rw [shiftIn, BitVec.toNat_or]
  exact Nat.or_lt_two_pow hacc hbit

/-- A bit that completes no byte leaves the demodulator within clauses (1) and (2). -/
theorem State.demodOk_appendBit {s : State} (b : Bool) (h : s.demodOk) (h9 : s.bc + 1#4 ≠ 9#4)
    (h8 : ¬ (s.bc + 1#4 = 8#4 ∧ finalByte s = true)) : (appendBit b s).demodOk := by
  obtain ⟨hbc, -, hacc⟩ := h
  have hnext : (s.bc + 1#4).toNat = s.bc.toNat + 1 := toNat_add_one (by omega)
  have hne9 : (s.bc + 1#4).toNat ≠ 9 := fun e => h9 (BitVec.eq_of_toNat_eq e)
  have hne8 : finalByte s = true → (s.bc + 1#4).toNat ≠ 8 := fun hf e => h8 ⟨BitVec.eq_of_toNat_eq e, hf⟩
  refine ⟨?_, fun hf => ?_, ?_⟩ <;> simp only [appendBit_bc, appendBit_acc]
  · omega
  · have := hne8 hf; omega
  · rw [hnext]; exact shiftIn_lt b hacc

theorem State.Inv.pushBit {s t : State} {b : Bool} (h : s.Inv) (hrun : s.run ≠ .stopped)
    (hp : pushBit b s = .next t) : t.Inv := by
  rcases pushBit_cases b s with ⟨h9, h8, e⟩ | ⟨-, -, e⟩ | ⟨-, e⟩ <;> rw [e] at hp
  · cases hp
    exact h.of_demodOnly hrun (.appendBit b s) (State.demodOk_appendBit b h.demod h9 h8)
  · exact h.completeByte hrun (.synthParity_appendBit b s) hp
  · exact h.completeByte hrun (.appendBit b s) hp

theorem State.Inv.pulse {s t : State} {cause : DesyncCause} {k : PulseClass} (h : s.Inv) (hrun : s.run ≠ .stopped)
    (hp : pulse cause k s = .next t) : t.Inv := by
  rcases pulse_cases cause k s with e | ⟨b, e⟩ | e | e <;> rw [e] at hp
  · cases hp; exact h.of_demodOnly hrun rfl h.demod
  · exact State.Inv.pushBit (h.of_demodOnly (t := { s with hb := false }) hrun rfl h.demod) hrun hp
  · cases hp; exact h.of_demodOnly hrun rfl h.demod
  · cases hp; exact h.shared.inv_desync cause

/-! ### The commands -/

/-- CLEAR and TAKE empty the slot and leave the decoder alone. -/
theorem State.Inv.clearMailbox {s : State} (h : s.Inv) : s.clearMailbox.Inv := by
  have hs := h.shared.clearMailbox
  exact ⟨h.demod, h.assembler, hs.mailbox, hs.consumers, ⟨h.arrays.1, hs.mbFrame_wf, hs.cb_wf⟩,
    fun hr => ⟨(h.stopped hr).1, rfl, rfl⟩⟩

/-- A write of one consumer's registers that meets their clauses. -/
theorem State.Inv.setConsumer {s : State} {c : ConsumerNo} {k : ConsumerPort} (h : s.Inv)
    (hidle : s.cfg.mailboxMode = .atomicTake → k.ph = .idle) (hcopied : k.ph = .copied → FrameValid s.cfg k.cb)
    (hwf : k.cb.wf) : (s.setConsumer c k).Inv := by
  obtain ⟨hfb, hmb, hcb⟩ := h.arrays
  refine ⟨h.demod, h.assembler, h.mailbox, fun d => ?_, ⟨hfb, hmb, fun d => ?_⟩, h.stopped⟩ <;>
    by_cases hd : d = c
  · rw [hd, State.setConsumer_consumer_self]; exact ⟨hidle, hcopied⟩
  · rw [State.setConsumer_consumer_other s k hd]; exact h.consumers d
  · rw [hd, State.setConsumer_consumer_self]; exact hwf
  · rw [State.setConsumer_consumer_other s k hd]; exact hcb d

/-- Every command keeps the invariants. -/
theorem State.Inv.exec {i : Instr} {s t : State} (h : s.Inv) (he : exec i s = .next t) : t.Inv := by
  have hok : (s.respond Response.ok).Inv := h.congr rfl
  cases CommandEffect.of_exec he with
  | reject => exact h.congr rfl
  | exit => exact hok.shared.inv_workerExit
  | samplePulse _ hrun hp => exact hok.pulse (by simp [hrun]) hp
  | timeout => exact hok.shared.inv_desync _
  | nodata => exact h.congr rfl
  | copy hm _ _ hr =>
    exact (h.setConsumer (by simp [hm]) (fun _ => h.mailbox.2 hr) h.arrays.2.1).congr rfl
  | @clear c =>
    exact (h.clearMailbox.setConsumer (c := c) (k := ⟨.idle, (s.consumer c).cb⟩) (fun _ => rfl) (by simp)
      (h.shared.cb_wf c)).congr rfl
  | take => exact h.clearMailbox.congr rfl
  | start =>
    have hs := h.shared.inv_daReset.clearMailbox
    exact ⟨hs.demod, hs.assembler, hs.mailbox, hs.consumers, hs.arrays, fun hr => by simp at hr⟩
  | stop => exact ⟨h.demod, h.assembler, h.mailbox, h.consumers, h.arrays, fun hr => by simp at hr⟩
  | timeoutIgnored => exact h.congr rfl
  | timeoutSet => exact h.congr rfl

theorem State.Inv.step {s t : State} (h : s.Inv) (ht : step s = .next t) : t.Inv := by
  rcases step_cases s with ⟨-, e⟩ | ⟨p, rest, -, ⟨-, e⟩ | ⟨i, -, e⟩⟩ <;> rw [e] at ht
  · cases ht; exact h
  · cases ht; exact h.congr rfl
  · exact State.Inv.exec (h.congr rfl) ht

/-- Settles O44: `State.Inv` is inductive, by the effects of the commands. -/
theorem everyStepKeepsTheInvariants : Obligations.EveryStepKeepsTheInvariants :=
  fun _ _ h ht => h.step ht

end Sys2Proof.Machine
end

section
/-! What commands leave alone (`tmo_ms`, the slot, the configuration), and the power-on state. -/

namespace Sys2Proof.Machine

/-- Settles O47: of the effects only the accepted SET_TIMEOUT of a non-zero operand writes `tmo_ms`. -/
theorem timeoutWrittenOnlyBySetTimeout : Obligations.TimeoutWrittenOnlyBySetTimeout := by
  intro i s t h
  cases CommandEffect.of_exec h with
  | samplePulse _ _ hp => exact .inl (ProducerFrame.pulse hp).tmoMs
  | timeoutSet hport hms => exact .inr ⟨_, rfl, hms, hport, rfl⟩
  | _ => exact .inl rfl

/-! ### The slot -/

/-- The slot is as it was, or a publish filled it. -/
def SlotKeptOrPublished (s t : State) : Prop :=
  (t.mbReady = s.mbReady ∧ t.mbFrame = s.mbFrame) ∨ (t.mbReady = true ∧ Event.publish ∈ t.trace)

/-- The relation looks at the slot alone in the state before. -/
theorem SlotKeptOrPublished.of_same_slot {s s' t : State} (h : SlotKeptOrPublished s' t)
    (hr : s'.mbReady = s.mbReady) (hf : s'.mbFrame = s.mbFrame) : SlotKeptOrPublished s t := by
  rwa [SlotKeptOrPublished, hr, hf] at h

theorem SlotKeptOrPublished.frameComplete (s : State) : SlotKeptOrPublished s (frameComplete s) := by
  unfold Machine.frameComplete
  rcases publish_cases s.fb s with e | e | e <;> rw [e]
  · exact .inr ⟨rfl, by simp⟩
  · exact .inr ⟨rfl, by simp⟩
  · exact .inl ⟨rfl, rfl⟩

theorem SlotKeptOrPublished.checkLength (s : State) : SlotKeptOrPublished s (checkLength s) := by
  rcases checkLength_cases s with ⟨-, e⟩ | ⟨-, ⟨-, -, e⟩ | ⟨-, -, ⟨-, e⟩ | ⟨-, e⟩⟩ | ⟨-, -, e⟩⟩ <;> rw [e]
  · exact .inl ⟨rfl, rfl⟩
  · exact .inl (by simp)
  · exact .inl (by simp)
  · exact (SlotKeptOrPublished.frameComplete _).of_same_slot (by simp) (by simp)
  · exact .inl (by simp)

theorem SlotKeptOrPublished.checkCommit (s : State) : SlotKeptOrPublished s (checkCommit s) := by
  rcases checkCommit_cases s with ⟨-, -, e⟩ | ⟨-, e⟩ | ⟨-, -, e⟩ <;> rw [e]
  · exact .inl ⟨rfl, rfl⟩
  · exact .checkLength s
  · exact .inl ⟨rfl, rfl⟩

theorem SlotKeptOrPublished.commit {b : Byte} {s t : State} (h : commit b s = .next t) :
    SlotKeptOrPublished s t := by
  obtain ⟨-, rfl⟩ := commit_eq_next.mp h
  exact (SlotKeptOrPublished.checkCommit _).of_same_slot rfl rfl

theorem SlotKeptOrPublished.completeByte {s t : State} (h : completeByte s = .next t) :
    SlotKeptOrPublished s t := by
  rcases completeByte_cases s with ⟨-, e⟩ | ⟨-, e⟩ <;> rw [e] at h
  · cases h; exact .inl ⟨rfl, rfl⟩
  · exact (SlotKeptOrPublished.commit h).of_same_slot rfl rfl

theorem SlotKeptOrPublished.pushBit {b : Bool} {s t : State} (h : pushBit b s = .next t) :
    SlotKeptOrPublished s t := by
  rcases pushBit_cases b s with ⟨-, -, e⟩ | ⟨-, -, e⟩ | ⟨-, e⟩ <;> rw [e] at h
  · cases h; exact .inl ⟨rfl, rfl⟩
  · exact (SlotKeptOrPublished.completeByte h).of_same_slot rfl rfl
  · exact (SlotKeptOrPublished.completeByte h).of_same_slot rfl rfl

theorem SlotKeptOrPublished.pulse {cause : DesyncCause} {k : PulseClass} {s t : State}
    (h : pulse cause k s = .next t) : SlotKeptOrPublished s t := by
  rcases pulse_cases cause k s with e | ⟨b, e⟩ | e | e <;> rw [e] at h
  · cases h; exact .inl ⟨rfl, rfl⟩
  · exact (SlotKeptOrPublished.pushBit h).of_same_slot rfl rfl
  · cases h; exact .inl ⟨rfl, rfl⟩
  · cases h; exact .inl ⟨rfl, rfl⟩

/-- Settles O49: the worker's exit, CLEAR, TAKE and START empty the slot, and of the rest only the pulse of a
SAMPLE can fill it. -/
theorem slotFilledOnlyByPublish : Obligations.SlotFilledOnlyByPublish := by
  intro i s t _ h
  cases CommandEffect.of_exec h with
  | samplePulse _ _ hp =>
    rcases SlotKeptOrPublished.pulse hp with hkept | ⟨hready, hpub⟩
    · exact .inl hkept
    · exact .inr (.inr ⟨hready, hpub, _, rfl⟩)
  | exit | clear | take | start => exact .inr (.inl ⟨rfl, rfl⟩)
  | _ => exact .inl ⟨rfl, rfl⟩

/-! ### The configuration -/

/-- No command changes the configuration or takes another command. -/
theorem exec_cfg_inbox {i : Instr} {s t : State} (h : exec i s = .next t) : t.cfg = s.cfg ∧ t.inbox = s.inbox := by
  cases CommandEffect.of_exec h with
  | samplePulse _ _ hp => exact ⟨(ProducerFrame.pulse hp).cfg, (ProducerFrame.pulse hp).inbox⟩
  | _ => exact ⟨rfl, rfl⟩

/-- Settles O55: `State.accept` takes the head of the inbox, and no command touches it or the configuration. -/
theorem configurationIsFixed : Obligations.ConfigurationIsFixed := by
  intro s t ht
  rcases step_cases s with ⟨hin, e⟩ | ⟨p, rest, hin, ⟨-, e⟩ | ⟨i, -, e⟩⟩ <;> rw [e] at ht
  · cases ht; simp [hin]
  · cases ht; simp [hin]
  · simpa [hin] using exec_cfg_inbox ht

/-! ### Power-on -/

@[simp] theorem State.powerOn_consumer (cfg : Config) (c : ConsumerNo) :
    (State.powerOn cfg).consumer c = ConsumerPort.powerOn := by
  simp [State.consumer, State.powerOn]

/-- Settles O41: every register but the consumers' reads off the definition; each consumer's is a copy of one
record. -/
theorem powerOnValues : Obligations.PowerOnValues := by
  rintro cfg s rfl
  refine ⟨rfl, rfl, rfl, rfl, fun _ => rfl, rfl, rfl, rfl, fun _ => rfl, rfl, rfl, fun c => ?_⟩
  rw [State.powerOn_consumer]
  exact ⟨rfl, fun _ => rfl⟩

theorem State.powerOn_sharedInv (cfg : Config) : (State.powerOn cfg).SharedInv where
  mailbox := ⟨fun _ _ _ => rfl, fun hr => by simp [State.powerOn] at hr⟩
  consumers := fun c => by rw [State.powerOn_consumer]; simp [ConsumerPort.powerOn]
  mbFrame_wf := Memory.wf_nil
  cb_wf := fun c => by rw [State.powerOn_consumer]; exact Memory.wf_nil
  stopped := fun _ => ⟨rfl, rfl⟩

/-- Settles O43: power-on is a reset decoder beside an empty slot and IDLE consumers. -/
theorem invariantsHoldAtPowerOn : Obligations.InvariantsHoldAtPowerOn :=
  fun cfg => (State.powerOn_sharedInv cfg).inv_of_decoderReset ⟨rfl, rfl, rfl, rfl, rfl, rfl, rfl⟩

end Sys2Proof.Machine
end

section
/-! Who writes what (R64): the consumer registers belong to COPY and CLEAR, the consumer commands leave the
producer and the host alone, and the sample port leaves the consumers and the host alone. -/

namespace Sys2Proof.Machine

/-- Settles O48: COPY and CLEAR of a consumer `c` write the registers of `c` alone, and CLEAR writes `cb` back as
it was. No other effect writes a consumer register. -/
theorem consumerRegistersArePrivate : Obligations.ConsumerRegistersArePrivate := by
  intro i s t d h
  cases CommandEffect.of_exec h with
  | samplePulse _ _ hp =>
    have hkept := State.consumer_congr (ProducerFrame.pulse hp).consumers d
    exact ⟨.inl hkept, .inl (congrArg _ hkept)⟩
  | @copy c _ _ _ hready =>
    by_cases hd : d = c
    · subst hd
      exact ⟨.inr (.inl rfl), .inr ⟨rfl, hready, by simp⟩⟩
    · simp [State.setConsumer_consumer_other _ _ hd]
  | @clear c =>
    by_cases hd : d = c
    · subst hd
      exact ⟨.inr (.inr rfl), .inl (by simp)⟩
    · simp [State.setConsumer_consumer_other _ _ hd]
  | _ => exact ⟨.inl rfl, .inl rfl⟩

/-- Settles O50: each path of the three commands writes at most the slot and one consumer's registers, then
answers; COPY leaves the slot alone, and TAKE the consumers. -/
theorem consumerCommandsLeaveTheDecoder : Obligations.ConsumerCommandsLeaveTheDecoder := by
  rintro i c s t (rfl | rfl | rfl) h
  case inl =>
    rcases execCopy_cases c s with e | ⟨-, -, -, ⟨-, e⟩ | ⟨-, e⟩⟩ <;> cases e.symm.trans h <;>
      exact ⟨rfl, fun _ => ⟨rfl, rfl⟩, nofun⟩
  case inr.inl =>
    rcases execClear_cases c s with e | ⟨-, -, -, e⟩ <;> cases e.symm.trans h <;> exact ⟨rfl, nofun, nofun⟩
  case inr.inr =>
    rcases execTake_cases c s with e | ⟨-, -, ⟨-, e⟩ | ⟨-, e⟩⟩ <;> cases e.symm.trans h <;>
      exact ⟨rfl, nofun, fun _ => rfl⟩

/-- The frame that SAMPLE and TMO share: the pulse writes none of these fields, and the worker's exit `run` alone
(R100, R101, R192). -/
theorem samplePort_frame {cause : DesyncCause} {k : PulseClass} {s t : State}
    (h : samplePort cause k s = .next t) :
    t.consumers = s.consumers ∧ t.tmoMs = s.tmoMs ∧ t.cfg = s.cfg ∧ t.inbox = s.inbox ∧ t.port = s.port ∧
      (t.run = s.run ∨ (s.run = .stopping ∧ t.run = .stopped)) := by
  rcases samplePort_cases cause k s with ⟨-, e⟩ | ⟨-, hrun, e⟩ | ⟨-, -, e⟩ <;> rw [e] at h
  · cases h
    exact ⟨rfl, rfl, rfl, rfl, rfl, .inl rfl⟩
  · cases h
    exact ⟨rfl, rfl, rfl, rfl, rfl, .inr ⟨hrun, rfl⟩⟩
  · have hframe := ProducerFrame.pulse h
    exact ⟨hframe.consumers, hframe.tmoMs, hframe.cfg, hframe.inbox, hframe.port, .inl hframe.run⟩

/-- Settles O51: SAMPLE and TMO are the sample port with a cause and a class of pulse. -/
theorem samplePortLeavesConsumersAndHost : Obligations.SamplePortLeavesConsumersAndHost := by
  rintro i d s t (rfl | rfl) h
  · exact samplePort_frame (cause := .duration) h
  · exact samplePort_frame (cause := .timeout) h

end Sys2Proof.Machine
end

section
/-! The opcode map (R75): which fields of a word each row fixes, that no word is in two rows, that `decode` and
`encode` are inverse to each other, and which words are reserved (R76). The idea: a row's mask is a number of high
bits, so a word of the row is the row's match in those bits and the operand field below them. -/

namespace Sys2Proof

open Sys2Proof.Laws

/-! ### Fields of a word -/

/-- Under a mask of the high bits, a word has the match exactly when its high field is the match's. -/
theorem and_highMask_eq_iff {h l : Nat} (w : BitVec (h + l)) (hi : BitVec h) :
    w &&& (BitVec.allOnes h ++ 0#l) = hi ++ 0#l ↔ w.extractLsb' l h = hi := by
  have hw : w &&& (BitVec.allOnes h ++ 0#l) = w.extractLsb' l h ++ 0#l := by
    conv_lhs => rw [← BitVec.extractLsb'_append_extractLsb' (x := w)]
    exact append_and_highMask _ _
  rw [hw, BitVec.append_left_inj]

theorem append_eq_append_iff {h l : Nat} {a c : BitVec h} {b d : BitVec l} : a ++ b = c ++ d ↔ a = c ∧ b = d := by
  refine ⟨fun e => ⟨?_, ?_⟩, fun ⟨e₁, e₂⟩ => by rw [e₁, e₂]⟩
  · simpa only [BitVec.extractLsb'_append_eq_left] using congrArg (BitVec.extractLsb' l h) e
  · simpa only [BitVec.extractLsb'_append_eq_right] using congrArg (BitVec.extractLsb' 0 l) e

theorem extractLsb'_eq_append_iff {n a b : Nat} (l : Nat) (w : BitVec n) (x : BitVec a) (y : BitVec b) :
    w.extractLsb' l (a + b) = x ++ y ↔ w.extractLsb' (l + b) a = x ∧ w.extractLsb' l b = y := by
  rw [← BitVec.extractLsb'_append_extractLsb'_eq_extractLsb' rfl, append_eq_append_iff]

/-! ### What each row selects -/

theorem OpRow.selects_iff (r : OpRow) (w : Word) : r.selects w = true ↔ w &&& r.mask = r.pattern := beq_iff_eq

/-- Format S (R72): operation, V, three reserved zeros, DUR. -/
theorem matchS_iff (op : BitVec 4) (v : BitVec 1) (w : Word) : w &&& 0xFF000000#32 = op ++ v ++ 0#3 ++ 0#24 ↔
    (w.extractLsb' 28 4 = op ∧ w.extractLsb' 27 1 = v) ∧ w.extractLsb' 24 3 = 0#3 :=
  (and_highMask_eq_iff (l := 24) w (op ++ v ++ 0#3)).trans <| (extractLsb'_eq_append_iff 24 w (op ++ v) 0#3).trans <|
    and_congr_left' (extractLsb'_eq_append_iff 27 w op v)

/-- Format K (R73): operation, reserved zeros, C. -/
theorem matchK_iff (op : BitVec 4) (w : Word) : w &&& 0xFFFFFFF0#32 = op ++ 0#24 ++ 0#4 ↔
    w.extractLsb' 28 4 = op ∧ w.extractLsb' 4 24 = 0#24 :=
  (and_highMask_eq_iff (l := 4) w (op ++ 0#24)).trans (extractLsb'_eq_append_iff 4 w op 0#24)

/-- Format Z (R74): operation, reserved zeros. -/
theorem matchZ_iff (op : BitVec 4) (w : Word) : w &&& 0xFFFFFFFF#32 = op ++ 0#28 ↔
    w.extractLsb' 28 4 = op ∧ w.extractLsb' 0 28 = 0#28 := by
  have hw : w &&& 0xFFFFFFFF#32 = w.extractLsb' 0 (4 + 28) := BitVec.and_allOnes.trans BitVec.extractLsb'_eq_self.symm
  rw [hw]
  exact extractLsb'_eq_append_iff 0 w op 0#28

/-- Format T (R74): operation, MS. -/
theorem matchT_iff (op : BitVec 4) (w : Word) : w &&& 0xF0000000#32 = op ++ 0#28 ↔ w.extractLsb' 28 4 = op :=
  and_highMask_eq_iff (l := 28) w op

/-- No word is in two rows (R75): two rows differ in a bit that both masks hold. -/
theorem OpRow.eq_of_selects {w : Word} {r q : OpRow} (hr : r ∈ opcodeMap) (hq : q ∈ opcodeMap)
    (hrw : r.selects w = true) (hqw : q.selects w = true) : r = q := by
  have differ : ∀ r ∈ opcodeMap, ∀ q ∈ opcodeMap, r.pattern &&& q.mask = q.pattern &&& r.mask → r = q := by decide
  refine differ r hr q hq ?_
  rw [← (OpRow.selects_iff r w).mp hrw, ← (OpRow.selects_iff q w).mp hqw, BitVec.and_assoc, BitVec.and_assoc,
    BitVec.and_comm r.mask]

/-! ### Decoding and encoding -/

theorem Instr.row_mem_opcodeMap (i : Instr) : i.row ∈ opcodeMap := by
  cases i <;> simp [Instr.row, opcodeMap]

/-- The command of `i`'s row whose operand is the field of the word `w` (R72 to R74). -/
def Instr.readFrom (w : Word) : Instr → Instr
  | .sample _ => .sample (fieldDur w)
  | .tmo _ => .tmo (fieldDur w)
  | .copy _ => .copy (fieldC w)
  | .clear _ => .clear (fieldC w)
  | .take _ => .take (fieldC w)
  | .start => .start
  | .stop => .stop
  | .setTimeout _ => .setTimeout (fieldMs w)

@[simp] theorem Instr.row_readFrom (i : Instr) (w : Word) : (i.readFrom w).row = i.row := by
  cases i <;> rfl

/-- What a decoded command says of its word. -/
theorem selects_of_decode {w : Word} {i : Instr} (h : decode w = some i) :
    i.row.selects w = true ∧ i.readFrom w = i := by
  unfold decode at h
  repeat' split at h
  all_goals cases h
  all_goals exact ⟨‹_›, rfl⟩

/-- A word of a row decodes to the command of that row. -/
theorem decode_of_selects {w : Word} {i : Instr} (h : i.row.selects w = true) : decode w = some (i.readFrom w) := by
  have only : ∀ q ∈ opcodeMap, q.selects w = decide (q = i.row) := fun q hq =>
    Bool.eq_iff_iff.mpr ⟨fun hqw => decide_eq_true (OpRow.eq_of_selects hq i.row_mem_opcodeMap hqw h),
      fun e => of_decide_eq_true e ▸ h⟩
  simp only [opcodeMap, List.forall_mem_cons] at only
  obtain ⟨h₁, h₂, h₃, h₄, h₅, h₆, h₇, h₈, -⟩ := only
  rw [decode, h₁, h₂, h₃, h₄, h₅, h₆, h₇, h₈]
  cases i <;> rfl

/-- The words of a row are those that decode to a command of it. -/
theorem selects_iff_decode (i : Instr) (w : Word) : i.row.selects w = true ↔ decode w = some (i.readFrom w) :=
  ⟨decode_of_selects, fun h => by simpa using (selects_of_decode h).1⟩

/-- The reserved words are those of no row (R76). -/
theorem decode_eq_none_iff (w : Word) : decode w = none ↔ ∀ r ∈ opcodeMap, ¬ r.selects w = true := by
  have row : ∀ r ∈ opcodeMap, ∃ i : Instr, i.row = r := by
    simp only [opcodeMap, List.forall_mem_cons]
    exact ⟨⟨.sample 0, rfl⟩, ⟨.tmo 0, rfl⟩, ⟨.copy 0, rfl⟩, ⟨.clear 0, rfl⟩, ⟨.take 0, rfl⟩, ⟨.start, rfl⟩,
      ⟨.stop, rfl⟩, ⟨.setTimeout 0, rfl⟩, nofun⟩
  constructor
  · intro hnone r hr hrw
    obtain ⟨i, rfl⟩ := row r hr
    rw [decode_of_selects hrw] at hnone
    cases hnone
  · intro hno
    refine Option.eq_none_iff_forall_ne_some.mpr fun i hi => ?_
    exact hno i.row i.row_mem_opcodeMap (selects_of_decode hi).1

/-- The operand of an encoded command is read back. -/
theorem Instr.readFrom_encode (i : Instr) : i.readFrom (encode i) = i := by
  cases i with
  | sample d => exact congrArg _ BitVec.extractLsb'_append_eq_right
  | tmo d => exact congrArg _ BitVec.extractLsb'_append_eq_right
  | copy c => exact congrArg _ BitVec.extractLsb'_append_eq_right
  | clear c => exact congrArg _ BitVec.extractLsb'_append_eq_right
  | take c => exact congrArg _ BitVec.extractLsb'_append_eq_right
  | start => rfl
  | stop => rfl
  | setTimeout ms => exact congrArg _ BitVec.extractLsb'_append_eq_right

theorem Instr.row_selects_encode (i : Instr) : i.row.selects (encode i) = true := by
  cases i with
  | sample d => exact EncodeFitsRow.sample d
  | tmo d => exact EncodeFitsRow.tmo d
  | copy c => exact EncodeFitsRow.copy c
  | clear c => exact EncodeFitsRow.clear c
  | take c => exact EncodeFitsRow.take c
  | start => exact EncodeFitsRow.start
  | stop => exact EncodeFitsRow.stop
  | setTimeout ms => exact EncodeFitsRow.setTimeout ms

/-- A word with the high field `hi` is `hi` and its low field. -/
theorem append_lowField {h l : Nat} {w : BitVec (h + l)} {hi : BitVec h}
    (e : w &&& (BitVec.allOnes h ++ 0#l) = hi ++ 0#l) : hi ++ w.extractLsb' 0 l = w := by
  rw [← (and_highMask_eq_iff w hi).mp e, BitVec.extractLsb'_append_extractLsb']

/-- A word of a row is the encoding of the command read from it: the match and the operand are all its bits. -/
theorem encode_readFrom {w : Word} {i : Instr} (h : i.row.selects w = true) : encode (i.readFrom w) = w := by
  rw [OpRow.selects_iff] at h
  cases i with
  | sample d => exact append_lowField (l := 24) h
  | tmo d => exact append_lowField (l := 24) h
  | copy c => exact append_lowField (l := 4) h
  | clear c => exact append_lowField (l := 4) h
  | take c => exact append_lowField (l := 4) h
  | start => exact h.symm.trans BitVec.and_allOnes
  | stop => exact h.symm.trans BitVec.and_allOnes
  | setTimeout ms => exact append_lowField (l := 28) h

/-- Settles O1: an encoded command is a word of its row, from which its operand is read back. -/
theorem everyCommandDecodesFromItsEncoding : Obligations.EveryCommandDecodesFromItsEncoding := by
  intro i
  rw [decode_of_selects i.row_selects_encode, i.readFrom_encode]

/-- Settles O2: a decoded word is a word of the command's row, all of whose other bits are the operand. -/
theorem everyDecodedWordIsItsEncoding : Obligations.EveryDecodedWordIsItsEncoding := by
  intro w i h
  obtain ⟨hrow, hread⟩ := selects_of_decode h
  rw [← hread, encode_readFrom hrow]

/-- The opcode map's condition on a word, for the row of `i`, is that the word decodes to a command of that row. -/
theorem match_iff_decode (i : Instr) (w : Word) :
    w &&& i.row.mask = i.row.pattern ↔ decode w = some (i.readFrom w) :=
  (OpRow.selects_iff _ w).symm.trans (selects_iff_decode i w)

/-- Settles O3: `match_iff_decode` at a command of each row, and `OpRow.eq_of_selects`. -/
theorem opcodeMapSelectsEachCommand : Obligations.OpcodeMapSelectsEachCommand :=
  ⟨fun w => ⟨match_iff_decode (.sample 0) w, match_iff_decode (.tmo 0) w, match_iff_decode (.copy 0) w,
    match_iff_decode (.clear 0) w, match_iff_decode (.take 0) w, match_iff_decode .start w,
    match_iff_decode .stop w, match_iff_decode (.setTimeout 0) w⟩,
    fun _ _ _ hr hq hrw hqw => OpRow.eq_of_selects hr hq hrw hqw⟩

/-! ### Reserved words -/

/-- Which operations and reserved fields no row has, where `s`, `k` and `z` say that the reserved field of the
formats S, K and Z is zero. -/
theorem fields_of_no_row (op : BitVec 4) (v : BitVec 1) (s k z : Prop) :
    (¬ ((op = 0x1#4 ∧ v = 1#1) ∧ s) ∧ ¬ ((op = 0x1#4 ∧ v = 0#1) ∧ s) ∧ ¬ (op = 0x2#4 ∧ k) ∧ ¬ (op = 0x3#4 ∧ k) ∧
      ¬ (op = 0x4#4 ∧ k) ∧ ¬ (op = 0x8#4 ∧ z) ∧ ¬ (op = 0x9#4 ∧ z) ∧ ¬ op = 0xA#4) ↔
    op ∈ [0x0#4, 0x5#4, 0x6#4, 0x7#4, 0xB#4, 0xC#4, 0xD#4, 0xE#4, 0xF#4] ∨ (op = 0x1#4 ∧ ¬ s) ∨
      (op ∈ [0x2#4, 0x3#4, 0x4#4] ∧ ¬ k) ∨ (op ∈ [0x8#4, 0x9#4] ∧ ¬ z) := by
  have hv : v = 1#1 ∨ v = 0#1 := by revert v; decide
  have hop : op ∈ (List.range 16).map (BitVec.ofNat 4) := by revert op; decide
  fin_cases hop <;> simp
  rcases hv with rfl | rfl <;> simp

theorem decode_eq_none_iff_fields (w : Word) : decode w = none ↔
    (w.extractLsb' 28 4 ∈ [0x0#4, 0x5#4, 0x6#4, 0x7#4, 0xB#4, 0xC#4, 0xD#4, 0xE#4, 0xF#4]) ∨
    (w.extractLsb' 28 4 = 0x1#4 ∧ w.extractLsb' 24 3 ≠ 0#3) ∨
    (w.extractLsb' 28 4 ∈ [0x2#4, 0x3#4, 0x4#4] ∧ w.extractLsb' 4 24 ≠ 0#24) ∨
    (w.extractLsb' 28 4 ∈ [0x8#4, 0x9#4] ∧ w.extractLsb' 0 28 ≠ 0#28) := by
  rw [decode_eq_none_iff]
  simp only [opcodeMap, List.forall_mem_cons, List.not_mem_nil, false_imp_iff, implies_true, and_true,
    OpRow.selects_iff]
  refine Iff.trans ?_ (fields_of_no_row _ (w.extractLsb' 27 1) (w.extractLsb' 24 3 = 0#3)
    (w.extractLsb' 4 24 = 0#24) (w.extractLsb' 0 28 = 0#28))
  exact and_congr (not_congr (matchS_iff 0x1 1 w)) <| and_congr (not_congr (matchS_iff 0x1 0 w)) <|
    and_congr (not_congr (matchK_iff 0x2 w)) <| and_congr (not_congr (matchK_iff 0x3 w)) <|
    and_congr (not_congr (matchK_iff 0x4 w)) <| and_congr (not_congr (matchZ_iff 0x8 w)) <|
    and_congr (not_congr (matchZ_iff 0x9 w)) <| not_congr (matchT_iff 0xA w)

namespace Machine

/-- A command on a port it is not legal on is REJECTED (R76, R217). -/
theorem exec_of_port_ne {i : Instr} {s : State} (h : s.port ≠ legalPort i) : exec i s = .next s.reject := by
  have consumer (c : ConsumerNo) (hp : s.onConsumerPort c = true) : s.port = .consumer (consumerIndex c) :=
    (onConsumerPort_eq_true.mp hp).2
  cases i with
  | sample d => exact if_pos h
  | tmo d => exact if_pos h
  | copy c => exact (execCopy_cases c s).resolve_right fun ⟨_, hp, _⟩ => h (consumer c hp)
  | clear c => exact (execClear_cases c s).resolve_right fun ⟨_, hp, _⟩ => h (consumer c hp)
  | take c => exact (execTake_cases c s).resolve_right fun ⟨_, hp, _⟩ => h (consumer c hp)
  | start => exact if_pos (.inl h)
  | stop => exact if_pos (.inl h)
  | setTimeout ms => exact if_pos h

theorem step_of_decode_none {s : State} {p : Presented} {rest : List Presented} (hin : s.inbox = p :: rest)
    (h : decode p.word = none) : step s = .next (s.accept p rest).reject := by
  simp [step, fetch, hin, h]

theorem step_of_decode_some {s : State} {p : Presented} {rest : List Presented} {i : Instr}
    (hin : s.inbox = p :: rest) (h : decode p.word = some i) : step s = exec i (s.accept p rest) := by
  simp [step, fetch, hin, h]

/-- Settles O4: `decode_eq_none_iff_fields`, and the two ways to be REJECTED: before a command is decoded, and by
the port test of the command. -/
theorem reservedWordsAndWrongPortsAreRejected : Obligations.ReservedWordsAndWrongPortsAreRejected := by
  refine ⟨decode_eq_none_iff_fields, ?_⟩
  rintro s p rest hin (hnone | ⟨i, hsome, hport⟩)
  · rw [step_of_decode_none hin hnone]; rfl
  · rw [step_of_decode_some hin hsome, exec_of_port_ne (by simpa using hport)]; rfl

/-- Settles O7: the accepted state is the one the statement writes out. -/
theorem stepRunsDecodedCommand : Obligations.StepRunsDecodedCommand :=
  fun _ _ _ _ hin hsome => step_of_decode_some hin hsome

end Machine

end Sys2Proof
end

section
/-! What crosses the boundary of the block: the packed response (R77), and the samples of the edge-timing
adapter (R79). -/

namespace Sys2Proof.Machine

/-! ### The packed response -/

/-- The bits of a field moved up to bit `n` of the response. -/
theorem getLsbD_setWidth_shiftLeft {w : Nat} (x : BitVec w) (n : Nat) {k : Nat} (hk : k < 128) :
    (x.setWidth 128 <<< n).getLsbD k = (decide (n ≤ k) && x.getLsbD (k - n)) := by
  by_cases h : n ≤ k
  · simp [hk, h]
  · simp [hk, h, Nat.lt_of_not_le h]

/-- A bit of fields put together by `or` is a bit of one of them. -/
theorem getLsbD_foldl_or {n : Nat} (l : List Nat) (f : Nat → BitVec n) (x : BitVec n) (k : Nat) :
    (l.foldl (fun x i => x ||| f i) x).getLsbD k = (x.getLsbD k || l.any fun i => (f i).getLsbD k) := by
  induction l generalizing x with
  | nil => simp
  | cons i l ih => rw [List.foldl_cons, ih, BitVec.getLsbD_or, List.any_cons, Bool.or_assoc]

/-- A bit of the packed response is a bit of the status, of the length or of a data byte. -/
theorem Response.packed_getLsbD_eq_true (r : Response) {k : Nat} (hk : k < 128) :
    r.packed.getLsbD k = true ↔ r.st.code.getLsbD k = true ∨ (4 ≤ k ∧ r.len.getLsbD (k - 4) = true) ∨
      ∃ i < frameCap, 8 * i + 8 ≤ k ∧ (r.data.read i).getLsbD (k - (8 * i + 8)) = true := by
  rw [Response.packed, getLsbD_foldl_or]
  simp only [BitVec.getLsbD_or, getLsbD_setWidth_shiftLeft _ _ hk, BitVec.getLsbD_setWidth, hk, decide_true,
    Bool.true_and, Bool.or_eq_true, Bool.and_eq_true, decide_eq_true_iff, List.any_eq_true, List.mem_range, or_assoc]

/-- The low byte holds the status and, from bit 4 on, the length. -/
theorem Response.packed_getLsbD_low (r : Response) {k : Nat} (hk : k < 8) :
    r.packed.getLsbD k = (r.st.code.getLsbD k || (decide (4 ≤ k) && r.len.getLsbD (k - 4))) := by
  rw [Bool.eq_iff_iff, r.packed_getLsbD_eq_true (by omega)]
  simp only [Bool.or_eq_true, Bool.and_eq_true, decide_eq_true_iff]
  constructor
  · rintro (h | h | ⟨i, -, hle, -⟩)
    · exact .inl h
    · exact .inr h
    · omega
  · rintro (h | h)
    · exact .inl h
    · exact .inr (.inl h)

/-- Bit `m` of byte `i`: the status, the length and the lower bytes end below it, the higher bytes start above. -/
theorem Response.packed_getLsbD_data (r : Response) {i m : Nat} (hi : i < frameCap) (hm : m < 8) :
    r.packed.getLsbD (8 * i + 8 + m) = (r.data.read i).getLsbD m := by
  have hk : 8 * i + 8 + m < 128 := by simp only [frameCap] at hi; omega
  rw [Bool.eq_iff_iff, r.packed_getLsbD_eq_true hk]
  constructor
  · rintro (h | ⟨-, h⟩ | ⟨j, -, hle, h⟩) <;> have hlt := BitVec.lt_of_getLsbD h
    · omega
    · omega
    · obtain rfl : j = i := by omega
      rwa [Nat.add_sub_cancel_left] at h
  · intro h
    refine .inr (.inr ⟨i, hi, by omega, ?_⟩)
    rwa [Nat.add_sub_cancel_left]

/-- Settles O6: each field is read back bit by bit. -/
theorem responsePacking : Obligations.ResponsePacking := by
  intro r
  refine ⟨?_, ?_, ?_, fun i hi => ?_⟩ <;>
    refine BitVec.eq_of_getLsbD_eq fun m hm => ?_ <;>
    simp only [BitVec.getLsbD_extractLsb', hm, decide_true, Bool.true_and]
  · rw [Nat.zero_add, r.packed_getLsbD_low (by omega)]
    simp [show ¬ 4 ≤ m by omega]
  · rw [r.packed_getLsbD_low (by omega), BitVec.getLsbD_of_ge _ _ (by omega)]
    simp [show ¬ 4 ≤ 2 + m by omega]
  · rw [r.packed_getLsbD_low (by omega), BitVec.getLsbD_of_ge _ _ (by omega)]
    simp
  · exact r.packed_getLsbD_data hi hm

/-! ### The edge-timing adapter -/

/-- A duration at or above every threshold is in no band (R102). -/
theorem classify_eq_bad {cfg : Config} {d : Dur} (hcfg : cfg.thresholdsOrdered) (h : cfg.pHigh ≤ d.toNat) :
    classify cfg true d = .bad := by
  obtain ⟨hlow, hmid, hhigh, -⟩ := hcfg
  have noise : ¬ d.toNat < cfg.pNoise := by omega
  have full : ¬ d.toNat < cfg.pHigh := by omega
  have half : ¬ d.toNat < cfg.pMid := by omega
  simp [classify, durMicros, noise, full, half]

/-- The adapter's sample of a valid edge, for a `DUR_W` that the field holds: no bit of the duration is lost. -/
theorem adapterSample_valid {cfg : Config} (hw : cfg.durW ≤ durFieldWidth) (micros : Nat) :
    ∃ d, adapterSample cfg true micros = .sample d ∧ d.toNat = min micros (2 ^ cfg.durW - 1) := by
  refine ⟨_, rfl, ?_⟩
  have hpos : 0 < 2 ^ cfg.durW := by positivity
  have hle : 2 ^ cfg.durW ≤ 2 ^ 24 := Nat.pow_le_pow_right (by omega) hw
  rw [BitVec.toNat_ofNat]
  exact Nat.mod_eq_of_lt (by omega)

/-- Settles O59: `P_HIGH < 2^DUR_W`, so a saturated duration is still at or above every threshold. -/
theorem adapterSaturatesDurations : Obligations.AdapterSaturatesDurations := by
  intro cfg hcfg hw
  have ⟨_, _, _, hhigh⟩ := hcfg
  refine ⟨fun _ => ⟨_, rfl⟩, fun micros hlt => ?_, fun micros hge => ?_⟩ <;>
    obtain ⟨d, hsample, hd⟩ := adapterSample_valid hw micros
  · exact ⟨d, hsample, by omega⟩
  · have hsat : d.toNat = 2 ^ cfg.durW - 1 := by omega
    exact ⟨d, hsample, hsat, classify_eq_bad hcfg (by omega)⟩

end Sys2Proof.Machine
end

section
/-! Bytes on the air (R80 to R82): the pulses of a bit push that bit, the pulses of a byte hold its bits in the
accumulator in the order sent, and the completed byte is the one sent. -/

namespace Sys2Proof.Machine

/-! ### Bits of the accumulator -/

theorem getLsbD_swapNibbles (d : Byte) {k : Nat} (hk : k < 8) :
    (swapNibbles d).getLsbD k = d.getLsbD (if k < 4 then k + 4 else k - 4) := by
  rw [swapNibbles, BitVec.getLsbD_append]
  split
  · next h => simp [h, Nat.add_comm]
  · next h => simp [show k - 4 < 4 by omega]

theorem getLsbD_reverseNibbles (d : Byte) {k : Nat} (hk : k < 8) :
    (reverseNibbles d).getLsbD k = d.getLsbD (if k < 4 then 3 - k else 11 - k) := by
  interval_cases k <;> simp only [reverseNibbles, BitVec.getLsbD_append, BitVec.getLsbD_ofBool] <;> rfl

/-- Reversal takes bit `k` from bit `7 - k` (R110). -/
theorem getLsbD_rev8 (d : Byte) {k : Nat} (hk : k < 8) : (rev8 d).getLsbD k = d.getLsbD (7 - k) := by
  rw [rev8, getLsbD_swapNibbles _ hk, getLsbD_reverseNibbles _ (by split <;> omega)]
  congr 1
  split <;> split <;> omega

theorem rev8_rev8 (d : Byte) : rev8 (rev8 d) = d := by
  refine BitVec.eq_of_getLsbD_eq fun k hk => ?_
  rw [getLsbD_rev8 _ hk, getLsbD_rev8 _ (by omega), show 7 - (7 - k) = k by omega]

/-- The parity of a byte does not depend on the order of its bits. -/
theorem parity8_rev8 (d : Byte) : parity8 (rev8 d) = parity8 d := by
  simp only [parity8, getLsbD_rev8, Nat.reduceLT, Nat.reduceSub]
  simp only [Bool.xor_assoc, Bool.xor_comm]

theorem getLsbD_shiftIn (acc : BitVec 9) (b : Bool) {k : Nat} (hk : k < 9) :
    (shiftIn acc b).getLsbD k = if k = 0 then b else acc.getLsbD (k - 1) := by
  cases k with
  | zero => simp [shiftIn]
  | succ k => simp [shiftIn, hk, BitVec.getLsbD_eq_getElem (show k < 9 by omega)]

/-- Of the bits shifted in, the last is the lowest (R25). -/
theorem getLsbD_foldl_shiftIn (acc : BitVec 9) (bits : List Bool) {k : Nat} (hk : k < bits.length) (h9 : k < 9) :
    (bits.foldl shiftIn acc).getLsbD k = bits.reverse[k]'(by simpa using hk) := by
  induction bits using List.reverseRecOn generalizing k with
  | nil => simp at hk
  | append_singleton bits b ih =>
    rw [List.foldl_append, List.foldl_cons, List.foldl_nil, getLsbD_shiftIn _ _ h9]
    cases k with
    | zero => simp
    | succ k => simpa using ih (by simpa using hk) (by omega)

theorem length_dataBits (b : Byte) : (dataBits b).length = 8 := by simp [dataBits]

/-- The eight data bits, sent from bit 0 on, stand reversed in the accumulator. -/
theorem extractLsb'_foldl_dataBits (acc : BitVec 9) (b : Byte) :
    ((dataBits b).foldl shiftIn acc).extractLsb' 0 8 = rev8 b := by
  refine BitVec.eq_of_getLsbD_eq fun k hk => ?_
  rw [BitVec.getLsbD_extractLsb', getLsbD_rev8 b hk, Nat.zero_add,
    getLsbD_foldl_shiftIn acc _ (by rw [length_dataBits]; exact hk) (by omega)]
  simp [dataBits, hk]

theorem extractLsb'_shiftIn (acc : BitVec 9) (b : Bool) : (shiftIn acc b).extractLsb' 1 8 = acc.extractLsb' 0 8 := by
  refine BitVec.eq_of_getLsbD_eq fun k hk => ?_
  rw [BitVec.getLsbD_extractLsb', BitVec.getLsbD_extractLsb', getLsbD_shiftIn _ _ (by omega)]
  simp

/-! ### Pulses -/

/-- A RUNNING block that takes the canonical pulses of R80 for what they are, no half bit pending. -/
structure State.AwaitsBit (s : State) : Prop where
  port : s.port = .sample
  run : s.run = .running
  hb : s.hb = false
  full : classify s.cfg true 1000#24 = .full
  half : classify s.cfg true 400#24 = .half

theorem exec_fullPulse {s : State} (h : s.AwaitsBit) : exec fullPulse s = fullBit (s.respond Response.ok) := by
  simp [exec, fullPulse, execSample, samplePort, h.port, h.run, h.full, pulse]

/-- The first half pulse of a 0 is held (R105). -/
theorem exec_halfPulse_first {s : State} (h : s.AwaitsBit) :
    exec halfPulse s = .next (({ s.respond Response.ok with hb := true }).emit .half) := by
  simp [exec, halfPulse, execSample, samplePort, h.port, h.run, h.half, pulse, halfBit, h.hb]

/-- The second half pulse of a 0 pushes it (R105). -/
theorem exec_halfPulse_second {s t : State} (h : s.AwaitsBit)
    (ht : t = ({ s.respond Response.ok with hb := true }).emit .half) :
    exec halfPulse t = pushBit false { t with hb := false } := by
  subst ht
  simp [exec, halfPulse, execSample, samplePort, h.port, h.run, h.half, pulse, halfBit, State.respond, State.emit]

/-- The state in which the last pulse of the bit `b` pushes it: a 0 has had its first half pulse. -/
def State.pushing (s : State) (b : Bool) : State :=
  { s with resp := some Response.ok, trace := s.trace ++ if b then [] else [.half] }

theorem andThen_next_right (r : Result) : andThen r .next = r := by cases r <;> rfl

/-- The pulses of a bit push it (R104, R105). -/
theorem execAll_bitPulses {s : State} (h : s.AwaitsBit) (b : Bool) :
    execAll (bitPulses b) s = pushBit b (s.pushing b) := by
  have hhb := h.hb
  cases b with
  | true =>
    change andThen (exec fullPulse s) .next = _
    rw [andThen_next_right, exec_fullPulse h, fullBit]
    congr 1
    cases s
    simp_all [State.pushing, State.respond]
  | false =>
    change andThen (exec halfPulse s) (fun t => andThen (exec halfPulse t) .next) = _
    rw [exec_halfPulse_first h, andThen_next, andThen_next_right, exec_halfPulse_second h rfl]
    congr 1
    cases s
    simp_all [State.pushing, State.respond, State.emit]

/-! ### The bits of a byte -/

/-- The state after the bits `bits` of a byte, sent from a byte boundary. -/
def State.holding (s : State) (bits : List Bool) : State :=
  { s with
    bc := BitVec.ofNat 4 bits.length, acc := bits.foldl shiftIn s.acc, resp := some Response.ok,
    trace := s.trace ++ bits.flatMap bitEvents }

@[simp] theorem State.holding_bc (s : State) (bits : List Bool) :
    (s.holding bits).bc = BitVec.ofNat 4 bits.length := rfl
@[simp] theorem State.holding_acc (s : State) (bits : List Bool) :
    (s.holding bits).acc = bits.foldl shiftIn s.acc := rfl
@[simp] theorem finalByte_holding (s : State) (bits : List Bool) : finalByte (s.holding bits) = finalByte s := rfl
@[simp] theorem State.pushing_bc (s : State) (b : Bool) : (s.pushing b).bc = s.bc := rfl
@[simp] theorem finalByte_pushing (s : State) (b : Bool) : finalByte (s.pushing b) = finalByte s := rfl

theorem State.AwaitsBit.holding {s : State} (h : s.AwaitsBit) (bits : List Bool) : (s.holding bits).AwaitsBit :=
  ⟨h.port, h.run, h.hb, h.full, h.half⟩

theorem State.pushing_holding_nil {s : State} (hbc : s.bc = 0#4) (b : Bool) :
    (s.holding []).pushing b = s.pushing b := by
  cases s
  simp_all [State.pushing, State.holding]

theorem appendBit_pushing_holding (s : State) (bits : List Bool) (b : Bool) :
    appendBit b ((s.holding bits).pushing b) = s.holding (bits ++ [b]) := by
  cases b <;>
    simp [appendBit, State.emit, State.pushing, State.holding, bitEvents, List.flatMap_append, BitVec.ofNat_add]

/-- A bit that is not the last of its byte is held. -/
theorem pushBit_holding {s : State} {bits : List Bool} (b : Bool) (hlen : bits.length + 1 ≤ 8)
    (hfinal : finalByte s = true → bits.length + 1 ≤ 7) :
    pushBit b ((s.holding bits).pushing b) = .next (s.holding (bits ++ [b])) := by
  have count (n : Nat) (hn : n < 16) : BitVec.ofNat 4 bits.length + 1#4 = BitVec.ofNat 4 n → bits.length + 1 = n := by
    intro e
    have := congrArg BitVec.toNat e
    simp only [BitVec.toNat_add, BitVec.toNat_ofNat] at this
    omega
  rw [← appendBit_pushing_holding]
  rcases pushBit_cases b ((s.holding bits).pushing b) with ⟨-, -, e⟩ | ⟨h8, hf, -⟩ | ⟨h9, -⟩
  · exact e
  · have := count 8 (by decide) h8
    have := hfinal hf
    omega
  · have := count 9 (by decide) h9
    omega

/-- The pulses of the bits `bits`, none the last of its byte, and of `b`: the last pulse pushes `b`. -/
theorem execAll_pulsesOf_append {s : State} (h : s.AwaitsBit) (hbc : s.bc = 0#4) {bits : List Bool} (b : Bool)
    (hlen : bits.length ≤ 8) (hfinal : finalByte s = true → bits.length ≤ 7) :
    execAll (pulsesOf (bits ++ [b])) s = pushBit b ((s.holding bits).pushing b) := by
  induction bits using List.reverseRecOn generalizing b with
  | nil => simpa [pulsesOf, State.pushing_holding_nil hbc] using execAll_bitPulses h b
  | append_singleton bits c ih =>
    rw [List.length_append] at hlen hfinal
    have held : execAll (pulsesOf (bits ++ [c])) s = .next (s.holding (bits ++ [c])) := by
      rw [ih c (by omega) (fun hf => by have := hfinal hf; omega), pushBit_holding c hlen hfinal]
    have hsplit : pulsesOf (bits ++ [c] ++ [b]) = pulsesOf (bits ++ [c]) ++ bitPulses b := by
      simp [pulsesOf]
    rw [hsplit, execAll_append, held, andThen_next, execAll_bitPulses (h.holding _)]

/-! ### The completed byte -/

/-- Nine bits that are a byte and its parity complete to that byte (R109, R110). -/
theorem completeByte_of_parityBits {s : State} {acc : BitVec 9} {b : Byte}
    (h : s.acc = (parityBits b).foldl shiftIn acc) :
    completeByte s = commit b (s.demodReset.emit (.byte s.bi b)) := by
  rw [parityBits, List.foldl_append, List.foldl_cons, List.foldl_nil] at h
  have data : s.acc.extractLsb' 1 8 = rev8 b := by rw [h, extractLsb'_shiftIn, extractLsb'_foldl_dataBits]
  have parity : s.acc.getLsbD 0 = parity8 b := by rw [h, getLsbD_shiftIn _ _ (by decide), if_pos rfl]
  rcases completeByte_cases s with ⟨hne, -⟩ | ⟨-, e⟩
  · rw [data, parity, parity8_rev8] at hne
    exact absurd rfl hne
  · rw [e, data, rev8_rev8]

/-- The eight bits of a byte with the parity the block adds are those of the byte sent with parity (R108). -/
theorem synthParity_acc_of_dataBits {s : State} {acc : BitVec 9} {b : Byte}
    (h : s.acc = (dataBits b).foldl shiftIn acc) : (synthParity s).acc = (parityBits b).foldl shiftIn acc := by
  rw [synthParity_acc, h, extractLsb'_foldl_dataBits, parity8_rev8, parityBits, List.foldl_append, List.foldl_cons,
    List.foldl_nil]

/-- A byte sent with parity completes on its ninth bit. -/
theorem execAll_bytePulses {s : State} (h : s.AwaitsBit) (hbc : s.bc = 0#4) (hfinal : finalByte s = false)
    (b : Byte) : execAll (bytePulses b) s = completeByte (s.holding (parityBits b)) := by
  have hlen := length_dataBits b
  rw [bytePulses, parityBits, execAll_pulsesOf_append h hbc _ hlen.le (by simp [hfinal]),
    ← appendBit_pushing_holding]
  have hbc8 : ((s.holding (dataBits b)).pushing (parity8 b)).bc = 8#4 := by simp [hlen]
  rcases pushBit_cases (parity8 b) ((s.holding (dataBits b)).pushing (parity8 b)) with
    ⟨h9, -, -⟩ | ⟨-, hf, -⟩ | ⟨-, e⟩
  · exact absurd (by rw [hbc8]; rfl) h9
  · simp [hfinal] at hf
  · exact e

/-- The last byte of a frame, sent without parity, completes on its eighth bit (R82, R108). -/
theorem execAll_lastBytePulses {s : State} (h : s.AwaitsBit) (hbc : s.bc = 0#4) (hfinal : finalByte s = true)
    (b : Byte) : execAll (lastBytePulses b) s = completeByte (synthParity (s.holding (dataBits b))) := by
  have hbits : dataBits b = (List.range 7).map b.getLsbD ++ [b.getLsbD 7] := by
    rw [dataBits, List.range_succ, List.map_append]; rfl
  rw [lastBytePulses, hbits, execAll_pulsesOf_append h hbc _ (by simp) (by simp), ← appendBit_pushing_holding]
  have hbc7 : ((s.holding ((List.range 7).map b.getLsbD)).pushing (b.getLsbD 7)).bc = 7#4 := by simp
  rcases pushBit_cases (b.getLsbD 7) ((s.holding ((List.range 7).map b.getLsbD)).pushing (b.getLsbD 7)) with
    ⟨-, h8, -⟩ | ⟨-, -, e⟩ | ⟨h9, -⟩
  · exact absurd ⟨by rw [hbc7]; rfl, hfinal⟩ h8
  · exact e
  · rw [hbc7] at h9
    exact absurd h9 (by decide)

/-- Settles O56: the nine bits complete on the last, and complete to the byte. -/
theorem byteSentWithParityIsCommitted : Obligations.ByteSentWithParityIsCommitted := by
  intro s b hport hrun hhb hbc hacc hfinal hfull hhalf
  rw [execAll_bytePulses ⟨hport, hrun, hhb, hfull, hhalf⟩ hbc hfinal, completeByte_of_parityBits rfl]
  congr 1
  cases s
  simp_all [State.holding, State.demodReset, State.emit, Response.ok]

/-- Settles O57: the eighth bit completes the byte with the parity bit that the sender left out. -/
theorem lastByteSentWithoutParityIsCommitted : Obligations.LastByteSentWithoutParityIsCommitted := by
  intro s b hport hrun hhb hbc hacc hfinal hfull hhalf
  rw [execAll_lastBytePulses ⟨hport, hrun, hhb, hfull, hhalf⟩ hbc hfinal,
    completeByte_of_parityBits (synthParity_acc_of_dataBits rfl)]
  congr 1
  cases s
  simp_all [State.holding, synthParity, State.demodReset, State.emit, Response.ok]

end Sys2Proof.Machine
end

section
/-! A frame on the air (R83): after each byte the buffer holds the bytes sent so far, and no check of a commit
fails on a frame whose length stands in byte 2, so its last byte publishes it (R130, R140). -/

namespace Sys2Proof.Machine

/-! ### The buffer while a frame arrives -/

theorem Memory.read_ofBytesFrom (i : Nat) (bs : List Byte) (k : Nat) :
    (Memory.ofBytesFrom i bs).read k = if i ≤ k ∧ k < frameCap then bs.getD (k - i) 0#8 else 0#8 := by
  induction bs generalizing i with
  | nil => simp [Memory.ofBytesFrom]
  | cons b bs ih =>
    rw [Memory.ofBytesFrom]
    split
    · next hi =>
      rw [Memory.read_set, ih]
      by_cases hk : k = i
      · simp [hk, hi]
      · by_cases hlt : i + 1 ≤ k
        · simp [hk, hlt, show i ≤ k by omega, show k - i = k - (i + 1) + 1 by omega]
        · simp [hk, hlt, show ¬ i ≤ k by omega]
    · next hi => simp [show ¬ (i ≤ k ∧ k < frameCap) by omega]

/-- The buffer holds the first `k` of the bytes `bs`, and 0 elsewhere. -/
def HoldsFirst (bs : List Byte) (k : Nat) (f : Memory) : Prop :=
  ∀ i, f.read i = if i < k then bs.getD i 0#8 else 0#8

theorem HoldsFirst.read {bs : List Byte} {k i : Nat} {f : Memory} (h : HoldsFirst bs k f) (hi : i < k) :
    f.read i = bs.getD i 0#8 := by
  rw [h i, if_pos hi]

theorem HoldsFirst.read_of_length_le {bs : List Byte} {k i : Nat} {f : Memory} (h : HoldsFirst bs k f)
    (hlen : bs.length ≤ k) : f.read i = bs.getD i 0#8 := by
  rw [h i]
  split
  · rfl
  · rw [List.getD_eq_default _ _ (by omega)]

theorem HoldsFirst.set {bs : List Byte} {k : Nat} {f : Memory} (h : HoldsFirst bs k f) :
    HoldsFirst bs (k + 1) (f.set k (bs.getD k 0#8)) := by
  intro i
  rw [Memory.read_set]
  by_cases hi : i = k
  · simp [hi]
  · rw [if_neg hi, h i]
    simp only [show i < k + 1 ↔ i < k by omega]

theorem HoldsFirst.slice {bs : List Byte} {k n : Nat} {f : Memory} (h : HoldsFirst bs k f) (hn : n < k)
    (hlen : n < bs.length) : slice f 1 n = bs.tail.take n := by
  refine List.ext_getElem (by simp [Machine.slice, indices]; omega) fun i hi _ => ?_
  have hi : i < n := by simpa [Machine.slice, indices] using hi
  simp [Machine.slice, indices, h.read (show i + 1 < k by omega), show i + 1 < bs.length by omega, Nat.add_comm 1 i]

/-! ### The bytes of a frame -/

/-- Every index of a frame that can be sent is one of the buffer (R54). -/
theorem lt_frameCap_of_framePayloadOk {cfg : Config} {payload : List Byte} {k : Nat}
    (hok : framePayloadOk cfg payload) (hk : k < payload.length + 3) : k < frameCap := by
  have hmax := hok.1
  simp only [lenMax, frameCap] at hmax ⊢
  omega

theorem length_frameBytes (cfg : Config) (payload : List Byte) :
    (frameBytes cfg payload).length = payload.length + 3 := by
  simp [frameBytes]

section
variable {cfg : Config} {payload : List Byte} {k : Nat} {f : Memory}

theorem HoldsFirst.sync (h : HoldsFirst (frameBytes cfg payload) k f) (hk : 0 < k) : f.read 0 = cfg.pSync := by
  rw [h.read hk]; rfl

/-- The length in byte 2 is that of the payload (R85). -/
theorem HoldsFirst.payloadLen (h : HoldsFirst (frameBytes cfg payload) k f) (hok : framePayloadOk cfg payload)
    (hk : 2 < k) : (payloadLen f).toNat = payload.length := by
  rw [← hok.2]
  congr 1
  refine payloadLen_congr ?_
  rw [h.read hk, Memory.ofBytes, Memory.read_ofBytesFrom]
  rfl

theorem HoldsFirst.xor8 (h : HoldsFirst (frameBytes cfg payload) k f) (hk : payload.length + 1 < k) :
    xor8 f 1 payload.length = f.read (payload.length + 1) := by
  rw [Machine.xor8, h.slice (by omega) (by rw [length_frameBytes]; omega), h.read hk]
  simp [frameBytes, frameXor]

theorem HoldsFirst.crc8 (h : HoldsFirst (frameBytes cfg payload) k f) (hk : payload.length + 2 < k) :
    crc8 cfg f 1 (payload.length + 1) = f.read (payload.length + 2) := by
  rw [Machine.crc8, h.slice (by omega) (by rw [length_frameBytes]; omega), h.read hk]
  simp [frameBytes, frameCrc, List.take_append, List.take_of_length_le]

end

/-! ### The checks of a commit -/

/-- The registers a length check writes. -/
theorem setLength_eq (l : BitVec 5) (s : State) :
    setLength l s = { s with elv := true, el := l, trace := (setLength l s).trace } := by
  unfold setLength; split <;> rfl

/-- `t` is `s`, in which no byte was held, with the first `k` bytes of the frame in the buffer. -/
structure Buffered (s : State) (payload : List Byte) (k : Nat) (t : State) : Prop where
  rest : t = { s with bi := t.bi, fb := t.fb, elv := t.elv, el := t.el, resp := t.resp, trace := t.trace }
  bi : t.bi.toNat = k
  fb : HoldsFirst (frameBytes s.cfg payload) k t.fb

/-- `t` is `s` after the first `k` bytes of the frame: from byte 2 on the length is known (R134). -/
structure Received (s : State) (payload : List Byte) (k : Nat) (t : State) : Prop extends
    Buffered s payload k t where
  elv : t.elv = decide (3 ≤ k)
  el : 3 ≤ k → t.el.toNat = payload.length

section
variable {s t : State} {payload : List Byte} {k : Nat}

theorem Buffered.cfg (h : Buffered s payload k t) : t.cfg = s.cfg := by rw [h.rest]

/-- Up to byte 1 only the sync byte is checked, and it matches (R132, R133). -/
theorem Buffered.checkCommit_eq (h : Buffered s payload k t) (hk : 0 < k) :
    checkCommit t = if k ≤ 2 then t else checkLength t := by
  have hbi := h.bi
  rcases checkCommit_cases t with ⟨-, hne, -⟩ | ⟨hgt, e⟩ | ⟨hle, -, e⟩
  · exact absurd (h.cfg ▸ h.fb.sync hk) hne
  · rw [e, if_neg (by omega)]
  · rw [e, if_pos (by omega)]

/-- From byte 2 on no check fails: the length is that of the payload, and the checksums match where they are in. -/
theorem Buffered.checkLength_eq (h : Buffered s payload k t) (hok : framePayloadOk s.cfg payload) (hk : 2 < k) :
    checkLength t = if k ≤ payload.length + 2 then setLength (payloadLen t.fb) t
      else frameComplete (setLength (payloadLen t.fb) t) := by
  have hbi := h.bi
  have hlen := h.fb.payloadLen hok hk
  have hmax := hok.1
  rcases checkLength_cases t with ⟨hl, -⟩ | ⟨-, ⟨hlt, hne, -⟩ | ⟨hlt, -, ⟨hne, -⟩ | ⟨-, e⟩⟩ | ⟨hle, -, e⟩⟩
  · omega
  · rw [hlen] at hne
    exact absurd (h.fb.xor8 (by omega)) hne
  · rw [hlen, h.cfg] at hne
    exact absurd (h.fb.crc8 (by omega)) hne
  · rw [e, if_neg (by omega)]
  · rw [e, if_pos (by omega)]

/-- The checks keep a frame that is not complete. -/
theorem Buffered.received_checkCommit (h : Buffered s payload k t) (hok : framePayloadOk s.cfg payload) (hk : 0 < k)
    (hlast : k ≤ payload.length + 2) (helv : k ≤ 2 → t.elv = false) : Received s payload k (checkCommit t) := by
  rw [h.checkCommit_eq hk]
  split
  · next h2 => exact ⟨h, by rw [helv h2, decide_eq_false (by omega)], fun _ => by omega⟩
  · next h2 =>
    rw [h.checkLength_eq hok (by omega), if_pos hlast]
    have hrest := h.rest
    refine ⟨⟨?_, by rw [setLength_bi, h.bi], by rw [setLength_fb]; exact h.fb⟩, ?_, fun _ => ?_⟩
    · rw [setLength_eq, hrest]
    · rw [setLength_elv, decide_eq_true (by omega)]
    · rw [setLength_el, h.fb.payloadLen hok (by omega)]

/-- The checks of the last byte publish the frame and reset the decoder (R140). -/
theorem Buffered.checkCommit_last (h : Buffered s payload (payload.length + 3) t)
    (hok : framePayloadOk s.cfg payload) (hpub : s.cfg.publishCanFail = false) (hreset : s.decoderReset) :
    ∃ trace, checkCommit t =
      { s with mbReady := true, mbFrame := t.fb, resp := t.resp, trace := trace } := by
  obtain ⟨hhb, hbc, hacc, hbi, hfb, helv, hel⟩ := hreset
  rw [h.checkCommit_eq (by omega), if_neg (by omega), h.checkLength_eq hok (by omega), if_neg (by omega),
    frameComplete, publish_of_cannot_fail _ (by rw [setLength_cfg, h.cfg, hpub]), setLength_fb]
  refine ⟨(setLength (payloadLen t.fb) t).trace ++ [.publish], ?_⟩
  rw [setLength_eq, h.rest]
  cases s
  simp_all [deliver, State.emit, State.daReset, State.demodReset]

/-- The write of a commit, before its checks (R131). -/
theorem Received.buffered_written (h : Received s payload k t) (hk : k < frameCap) :
    Buffered s payload (k + 1)
      { t with fb := t.fb.set t.bi.toNat ((frameBytes s.cfg payload).getD k 0#8), bi := t.bi + 1#4 } where
  rest := by rw [h.rest]
  bi := by rw [toNat_add_one (by rw [h.bi]; exact hk), h.bi]
  fb := by rw [h.bi]; exact h.fb.set

/-- The response and the events are no part of what was received. -/
theorem Received.congr (h : Received s payload k t) (resp : Option Response) (trace : List Event) :
    Received s payload k { t with resp := resp, trace := trace } :=
  ⟨⟨by rw [h.rest], h.bi, h.fb⟩, h.elv, h.el⟩

/-- The commit of a byte before the last. -/
theorem Received.commit_next (h : Received s payload k t) (hok : framePayloadOk s.cfg payload)
    (hk : k < payload.length + 2) :
    ∃ u, commit ((frameBytes s.cfg payload).getD k 0#8) t = .next u ∧ Received s payload (k + 1) u := by
  have hcap : k < frameCap := lt_frameCap_of_framePayloadOk hok (by omega)
  rw [commit_of_index_lt _ (by rw [h.bi]; exact hcap)]
  exact ⟨_, rfl, (h.buffered_written hcap).received_checkCommit hok (by omega) hk
    fun h2 => by rw [h.elv, decide_eq_false (by omega)]⟩

/-- The commit of the last byte: the slot holds the frame's bytes, and nothing else of `s` is changed. -/
theorem Received.commit_last (h : Received s payload (payload.length + 2) t) (hok : framePayloadOk s.cfg payload)
    (hpub : s.cfg.publishCanFail = false) (hreset : s.decoderReset) :
    ∃ f trace, HoldsFirst (frameBytes s.cfg payload) (payload.length + 3) f ∧
      commit ((frameBytes s.cfg payload).getD (payload.length + 2) 0#8) t =
        .next { s with mbReady := true, mbFrame := f, resp := t.resp, trace := trace } := by
  have hcap : payload.length + 2 < frameCap := lt_frameCap_of_framePayloadOk hok (by omega)
  have hw := h.buffered_written hcap
  obtain ⟨trace, hlast⟩ := hw.checkCommit_last hok hpub hreset
  rw [commit_of_index_lt _ (by rw [h.bi]; exact hcap), hlast]
  exact ⟨_, trace, hw.fb, rfl⟩

/-- Only the last byte of a frame with a payload is sent without parity (R29, R82). -/
theorem Received.finalByte_eq (h : Received s payload k t) :
    finalByte t = decide (3 ≤ k ∧ k = payload.length + 2) := by
  by_cases h3 : 3 ≤ k
  · rw [finalByte, h.elv, h.bi, h.el h3, Bool.decide_and]; rfl
  · simp [finalByte, h.elv, h3]

end

/-! ### The frame -/

/-- A RUNNING block with no bit of a byte held, that takes the canonical pulses of R80 for what they are. -/
structure State.AwaitsByte (s : State) : Prop extends s.AwaitsBit where
  bc : s.bc = 0#4
  acc : s.acc = 0#9

section
variable {s t : State} {payload : List Byte} {k : Nat}

theorem Received.awaitsByte (h : Received s payload k t) (hs : s.AwaitsByte) : t.AwaitsByte := by
  rw [h.rest]
  exact ⟨⟨hs.port, hs.run, hs.hb, hs.full, hs.half⟩, hs.bc, hs.acc⟩

/-- A byte sent with parity, as its commit. -/
theorem State.AwaitsByte.execAll_bytePulses (h : t.AwaitsByte) (hfinal : finalByte t = false) (b : Byte) :
    ∃ trace, execAll (bytePulses b) t = commit b { t with resp := some Response.ok, trace := trace } :=
  ⟨_, byteSentWithParityIsCommitted t b h.port h.run h.hb h.bc h.acc hfinal h.full h.half⟩

/-- The last byte sent without parity, as its commit. -/
theorem State.AwaitsByte.execAll_lastBytePulses (h : t.AwaitsByte) (hfinal : finalByte t = true) (b : Byte) :
    ∃ trace, execAll (lastBytePulses b) t = commit b { t with resp := some Response.ok, trace := trace } :=
  ⟨_, lastByteSentWithoutParityIsCommitted t b h.port h.run h.hb h.bc h.acc hfinal h.full h.half⟩

/-- The bytes before the last are received one after another. -/
theorem execAll_take_frameBytes (hs : s.AwaitsByte) (hreset : s.decoderReset) (hok : framePayloadOk s.cfg payload)
    (hk : k ≤ payload.length + 2) :
    ∃ t, execAll (((frameBytes s.cfg payload).take k).flatMap bytePulses) s = .next t ∧
      Received s payload k t := by
  induction k with
  | zero =>
    obtain ⟨-, -, -, hbi, hfb, helv, -⟩ := hreset
    exact ⟨s, rfl, ⟨⟨rfl, by rw [hbi]; rfl, fun i => by simp [hfb]⟩, by simp [helv], fun _ => by omega⟩⟩
  | succ k ih =>
    obtain ⟨t, hrun, ht⟩ := ih (by omega)
    have hlt : k < (frameBytes s.cfg payload).length := by rw [length_frameBytes]; omega
    have hfinal : finalByte t = false := by rw [ht.finalByte_eq, decide_eq_false (by omega)]
    obtain ⟨trace, hbyte⟩ :=
      (ht.awaitsByte hs).execAll_bytePulses hfinal ((frameBytes s.cfg payload).getD k 0#8)
    obtain ⟨u, hcommit, hu⟩ := (ht.congr (some Response.ok) trace).commit_next hok (by omega)
    refine ⟨u, ?_, hu⟩
    have htake : (frameBytes s.cfg payload).take (k + 1) =
        (frameBytes s.cfg payload).take k ++ [(frameBytes s.cfg payload).getD k 0#8] := by
      rw [List.take_add_one, List.getD_eq_getElem _ _ hlt, List.getElem?_eq_getElem hlt, Option.toList_some]
    rw [htake, List.flatMap_append, execAll_append, hrun, andThen_next, List.flatMap_singleton, hbyte, hcommit]

/-- The pulses of the last byte of a frame (R82). -/
def lastPulses (cfg : Config) (payload : List Byte) : List Instr :=
  if payload.length = 0 then bytePulses (frameCrc cfg payload) else lastBytePulses (frameCrc cfg payload)

/-- A frame on the air: its bytes before the last with parity, then the last. -/
theorem framePulses_eq (cfg : Config) (payload : List Byte) : framePulses cfg payload =
    ((frameBytes cfg payload).take (payload.length + 2)).flatMap bytePulses ++ lastPulses cfg payload := by
  simp [framePulses, lastPulses, frameBytes, List.take_append, List.take_of_length_le]

theorem getD_frameBytes_last (cfg : Config) (payload : List Byte) :
    (frameBytes cfg payload).getD (payload.length + 2) 0#8 = frameCrc cfg payload := by
  simp [frameBytes]

/-- The last byte, with or without parity, as its commit. -/
theorem Received.execAll_lastPulses (h : Received s payload (payload.length + 2) t) (hs : s.AwaitsByte) :
    ∃ trace, execAll (lastPulses s.cfg payload) t =
      commit (frameCrc s.cfg payload) { t with resp := some Response.ok, trace := trace } := by
  unfold lastPulses
  split
  · exact (h.awaitsByte hs).execAll_bytePulses (by rw [h.finalByte_eq, decide_eq_false (by omega)]) _
  · exact (h.awaitsByte hs).execAll_lastBytePulses (by rw [h.finalByte_eq, decide_eq_true (by omega)]) _

end

/-- Settles O58: every byte but the last is received, by induction, and the last one publishes. -/
theorem everyFrameSentIsPublished : Obligations.EveryFrameSentIsPublished := by
  intro s payload hport hrun hreset hpub hok hfull hhalf
  have ⟨hhb, hbc, hacc, _⟩ := hreset
  have hs : s.AwaitsByte := ⟨⟨hport, hrun, hhb, hfull, hhalf⟩, hbc, hacc⟩
  obtain ⟨t, hbytes, ht⟩ := execAll_take_frameBytes hs hreset hok le_rfl
  obtain ⟨trace, hlast⟩ := ht.execAll_lastPulses hs
  obtain ⟨f, trace', hf, hcommit⟩ := (ht.congr (some Response.ok) trace).commit_last hok hpub hreset
  rw [getD_frameBytes_last] at hcommit
  rw [framePulses_eq, execAll_append, hbytes, andThen_next, hlast, hcommit]
  exact ⟨_, rfl, rfl, fun i _ => hf.read_of_length_le (length_frameBytes s.cfg payload).le, rfl⟩

end Sys2Proof.Machine
end

section
/-! The demodulator: the bands of `classify` (R102), a command on the sample port in each run state (R100, R101),
what each pulse does (R103 to R106), and the bit that completes a byte (R107 to R110). -/

namespace Sys2Proof.Machine

/-! ### The bands -/

/-- Everything `classify` can answer for a valid sample, with what its tests, made in this order, say of the
duration. -/
theorem classify_cases (cfg : Config) (d : Dur) :
    (classify cfg true d = .noise ∧ d.toNat < cfg.pNoise) ∨
    (classify cfg true d = .full ∧ cfg.pNoise ≤ d.toNat ∧ cfg.pMid ≤ d.toNat ∧ d.toNat < cfg.pHigh) ∨
    (classify cfg true d = .half ∧ cfg.pNoise ≤ d.toNat ∧ cfg.pLow ≤ d.toNat ∧ d.toNat < cfg.pMid) ∨
    (classify cfg true d = .bad ∧ cfg.pNoise ≤ d.toNat ∧ ¬ (cfg.pMid ≤ d.toNat ∧ d.toNat < cfg.pHigh) ∧
      ¬ (cfg.pLow ≤ d.toNat ∧ d.toNat < cfg.pMid)) := by
  rw [classify, if_neg (by decide), durMicros]
  split
  · next noise => exact .inl ⟨rfl, noise⟩
  · next noise =>
    have hnoise := Nat.le_of_not_lt noise
    split
    · next full => exact .inr (.inl ⟨rfl, hnoise, full⟩)
    · next full =>
      split
      · next half => exact .inr (.inr (.inl ⟨rfl, hnoise, half⟩))
      · next half => exact .inr (.inr (.inr ⟨rfl, hnoise, full, half⟩))

/-- Settles O10: each answer's tests exclude the bands of the others, by the order of the thresholds. -/
theorem classifyFollowsTheBands : Obligations.ClassifyFollowsTheBands := by
  intro cfg d hcfg
  obtain ⟨hlow, hmid, hhigh, -⟩ := hcfg
  refine ⟨rfl, ?_⟩
  rcases classify_cases cfg d with ⟨e, h⟩ | ⟨e, h⟩ | ⟨e, h⟩ | ⟨e, h⟩ <;>
    simp only [e, reduceCtorEq, false_iff, true_iff] <;> omega

/-! ### The sample port in each run state -/

section
variable {s : State} (cause : DesyncCause) (k : PulseClass)

theorem samplePort_of_stopped (hport : s.port = .sample) (hrun : s.run = .stopped) :
    samplePort cause k s = .next s.reject := by
  simp [samplePort, hport, hrun]

theorem samplePort_of_stopping (hport : s.port = .sample) (hrun : s.run = .stopping) :
    samplePort cause k s = .next (s.respond Response.ok).workerExit := by
  simp [samplePort, hport, hrun]

theorem samplePort_of_running (hport : s.port = .sample) (hrun : s.run = .running) :
    samplePort cause k s = pulse cause k (s.respond Response.ok) := by
  simp [samplePort, hport, hrun]

end

/-- A SAMPLE of a known class while RUNNING. -/
theorem exec_sample_of_classify {s : State} {d : Dur} {k : PulseClass} (hport : s.port = .sample)
    (hrun : s.run = .running) (hk : classify s.cfg true d = k) :
    exec (.sample d) s = pulse .duration k (s.respond Response.ok) := by
  rw [exec, execSample, samplePort_of_running _ _ hport hrun, hk]

/-- TMO does not look at its DUR. -/
theorem exec_tmo (d : Dur) (s : State) : exec (.tmo d) s = samplePort .timeout .bad s := rfl

/-! ### Pulses of each class -/

/-- Settles O11: the class NOISE only emits. -/
theorem noisePulseChangesNoRegister : Obligations.NoisePulseChangesNoRegister := by
  intro s d hport hrun hlt
  have hk : classify s.cfg true d = .noise := by simp [classify, durMicros, hlt]
  rw [exec_sample_of_classify hport hrun hk]; rfl

/-- Settles O12: the duration is in the full band (O10). -/
theorem fullPulsePushesOne : Obligations.FullPulsePushesOne := by
  intro s d hport hrun hcfg hge hlt
  obtain ⟨-, -, full, -, -⟩ := classifyFollowsTheBands s.cfg d hcfg
  obtain ⟨hlow, hmid, -, -⟩ := hcfg
  rw [exec_sample_of_classify hport hrun (full.mpr ⟨by omega, hge, hlt⟩)]; rfl

/-- Settles O13: the duration is in the half band (O10), and `half_bit` tests `hb`. -/
theorem halfPulsesPairIntoZero : Obligations.HalfPulsesPairIntoZero := by
  intro s d hport hrun hcfg hge hlt
  obtain ⟨-, -, -, half, -⟩ := classifyFollowsTheBands s.cfg d hcfg
  obtain ⟨hlow, -, -, -⟩ := hcfg
  rw [exec_sample_of_classify hport hrun (half.mpr ⟨by omega, hge, hlt⟩), pulse, halfBit, State.respond_hb]
  refine ⟨fun hhb => ?_, fun hhb => ?_⟩
  · rw [if_neg (by simp [hhb])]; rfl
  · rw [if_pos hhb]; rfl

/-- Settles O18: the duration is in no band (O10). -/
theorem badDurationDesynchronises : Obligations.BadDurationDesynchronises := by
  intro s d hport hrun hcfg hbad
  obtain ⟨-, -, -, -, bad⟩ := classifyFollowsTheBands s.cfg d hcfg
  rw [exec_sample_of_classify hport hrun (bad.mpr hbad)]; rfl

/-- Settles O19: an invalid sample is BAD before its duration is compared with anything. -/
theorem timeoutDesynchronises : Obligations.TimeoutDesynchronises := by
  intro s d hport
  rw [exec_tmo]
  refine ⟨fun hrun => ?_, fun hrun => ?_, fun hrun => ?_⟩
  · rw [samplePort_of_stopped _ _ hport hrun]; rfl
  · rw [samplePort_of_stopping _ _ hport hrun]; rfl
  · rw [samplePort_of_running _ _ hport hrun]; rfl

/-! ### The bit that completes a byte -/

/-- Settles O17: the nibble swap moves bit `k` by four, the reversals turn it round within its nibble. -/
theorem revEightReversesAllBits : Obligations.RevEightReversesAllBits :=
  fun d _ hk => getLsbD_rev8 d hk

/-- A pushed bit, by the count of the bits held before it. -/
theorem pushBit_eq (b : Bool) (s : State) :
    pushBit b s =
      if s.bc = 8#4 then completeByte (appendBit b s)
      else if s.bc = 7#4 ∧ finalByte s = true then completeByte (synthParity (appendBit b s))
      else .next (appendBit b s) := by
  have eighth : s.bc + 1#4 = 8#4 ↔ s.bc = 7#4 := by bv_omega
  have ninth : s.bc + 1#4 = 9#4 ↔ s.bc = 8#4 := by bv_omega
  have outcome := pushBit_cases b s
  rw [ne_eq, eighth, ninth] at outcome
  rcases outcome with ⟨h8, h7, e⟩ | ⟨h7, hf, e⟩ | ⟨h8, e⟩
  · rw [if_neg h8, if_neg h7, e]
  · rw [if_neg (by rw [h7]; decide), if_pos ⟨h7, hf⟩, e]
  · rw [if_pos h8, e]

/-- The accumulator drops its top bit and takes the new one at the bottom. -/
theorem shiftIn_eq_append (acc : BitVec 9) (b : Bool) : shiftIn acc b = acc.extractLsb' 0 8 ++ BitVec.ofBool b := by
  refine BitVec.eq_of_getLsbD_eq fun k hk => ?_
  rw [getLsbD_shiftIn _ _ hk, BitVec.getLsbD_append, BitVec.getLsbD_ofBool, BitVec.getLsbD_extractLsb']
  cases k with
  | zero => simp
  | succ k => simp [show k < 8 by omega]

/-- The low byte of the accumulator after a bit: seven bits held before it, then the bit. -/
theorem extractLsb'_zero_shiftIn (acc : BitVec 9) (b : Bool) :
    (shiftIn acc b).extractLsb' 0 8 = acc.extractLsb' 0 7 ++ BitVec.ofBool b := by
  refine BitVec.eq_of_getLsbD_eq fun k hk => ?_
  rw [BitVec.getLsbD_extractLsb', getLsbD_shiftIn _ _ (by omega), BitVec.getLsbD_append, BitVec.getLsbD_ofBool,
    BitVec.getLsbD_extractLsb']
  cases k with
  | zero => simp
  | succ k => simp [hk, show k < 7 by omega]

/-- A completed byte is the eight bits held before the last, and the last bit is checked as their parity. -/
theorem completeByte_of_shiftIn {s : State} {acc : BitVec 9} {p : Bool} {d : Byte} (hacc : s.acc = shiftIn acc p)
    (hd : d = acc.extractLsb' 0 8) :
    completeByte s =
      if parity8 d = p then commit (rev8 d) (s.demodReset.emit (.byte s.bi (rev8 d)))
      else .next (s.desync .parity) := by
  have data : s.acc.extractLsb' 1 8 = d := by rw [hacc, extractLsb'_shiftIn, hd]
  have last : s.acc.getLsbD 0 = p := by rw [hacc, getLsbD_shiftIn _ _ (by decide), if_pos rfl]
  have outcome := completeByte_cases s
  rw [data, last] at outcome
  rcases outcome with ⟨hne, e⟩ | ⟨heq, e⟩
  · rw [if_neg hne, e]
  · rw [if_pos heq, e]

/-- Settles O14: the bit is only appended, since the count before it is neither 8 nor the 7 of a last byte. -/
theorem fullPulseWithinByte : Obligations.FullPulseWithinByte := by
  intro s d hport hrun hcfg hge hlt hbc hlast
  have h8 : s.bc ≠ 8#4 := by bv_omega
  rw [fullPulsePushesOne s d hport hrun hcfg hge hlt, pushBit_eq, if_neg h8]
  exact if_neg hlast

/-- Settles O15: the check compares the synthesised bit with the very byte it was made from (R108). -/
theorem synthesisedParityAlwaysPasses : Obligations.SynthesisedParityAlwaysPasses := by
  intro s b hbc
  have h8 : s.bc ≠ 8#4 := by rw [hbc]; decide
  rw [pushBit_eq, if_neg h8]
  refine ⟨fun hfinal d hd => ?_, fun hfinal => ?_⟩
  · have data : d = (shiftIn s.acc b).extractLsb' 0 8 := by rw [extractLsb'_zero_shiftIn, hd]
    have parity : parity8 d = parity8 ((shiftIn s.acc b).extractLsb' 0 8) := by rw [data]
    rw [if_pos ⟨hbc, hfinal⟩, completeByte_of_shiftIn (synthParity_acc _) data, appendBit_acc, if_pos parity]
    simp [State.demodReset, State.emit, synthParity, appendBit]
  · rw [if_neg (by simp [hfinal]), ← shiftIn_eq_append, appendBit, hbc]
    rfl

/-- Settles O16: the ninth bit of a byte completes it, and stands below the eight data bits. -/
theorem ninthBitIsCheckedAsParity : Obligations.NinthBitIsCheckedAsParity := by
  intro s b d hbc hd
  rw [pushBit_eq, if_pos hbc, completeByte_of_shiftIn (appendBit_acc s b) hd]
  refine ⟨fun hne => ?_, fun heq => ?_⟩
  · rw [if_neg hne]
    simp [State.desync, State.daReset, State.demodReset, State.emit, appendBit]
  · rw [if_pos heq]
    simp [State.demodReset, State.emit, appendBit]

end Sys2Proof.Machine
end

section
/-! The checksums: `xor8` over a range (R137), and the CRC as shifts of one register into which each byte is
XORed whole (R138), so that a byte equal to the register clears it. -/

namespace Sys2Proof.Machine

/-! ### The XOR of a range -/

theorem slice_of_lt (f : Memory) {a b : Nat} (h : b < a) : slice f a b = [] := by
  simp [slice, indices, show b + 1 - a = 0 by omega]

theorem slice_succ (f : Memory) {a b : Nat} (h : a ≤ b + 1) : slice f a (b + 1) = slice f a b ++ [f.read (b + 1)] := by
  have hlen : b + 1 + 1 - a = (b + 1 - a) + 1 := by omega
  have hlast : a + (b + 1 - a) = b + 1 := by omega
  rw [slice, slice, indices, indices, hlen, List.range'_1_concat, hlast, List.map_append, List.map_singleton]

theorem slice_self (f : Memory) (a : Nat) : slice f a a = [f.read a] := by
  simp [slice, indices]

theorem xorOf_append_singleton (bs : List Byte) (b : Byte) : xorOf (bs ++ [b]) = xorOf bs ^^^ b := by
  simp [xorOf]

/-- Settles O27: the bytes of the range, listed. -/
theorem xorOfARange : Obligations.XorOfARange := by
  intro f a b
  refine ⟨fun hlt => ?_, ?_, fun hle => ?_⟩
  · rw [xor8, slice_of_lt f hlt]; rfl
  · rw [xor8, slice_self]; exact BitVec.zero_xor
  · rw [xor8, slice_succ f (by omega), xorOf_append_singleton, xor8]

/-! ### The CRC -/

/-- One shift of the CRC register in the per-byte form (R138): the byte was XORed in before. -/
def crcShift (poly r : Byte) : Byte := if r.getLsbD 0 then (r >>> 1) ^^^ poly else r >>> 1

/-- One bit of the message: the bits of it not yet taken in shift along. -/
theorem crcShift_xor (poly c x : Byte) : crcShift poly (c ^^^ x) = crcBit poly c x ^^^ (x >>> 1) := by
  rw [crcShift, crcBit, BitVec.ushiftRight_xor_distrib]
  split
  · rw [BitVec.xor_assoc, BitVec.xor_assoc, BitVec.xor_comm poly]
  · rfl

/-- After `k` shifts the register that had all of `x` XORed in still holds the bits from `k` on. -/
theorem crcShift_iterate_xor (poly : Byte) (k : Nat) (c x : Byte) :
    (crcShift poly)^[k] (c ^^^ x) = crcBits poly k c x ^^^ (x >>> k) := by
  induction k generalizing c x with
  | zero => rfl
  | succ k ih =>
    rw [Function.iterate_succ_apply, crcShift_xor, ih, crcBits, ← BitVec.shiftRight_add, Nat.add_comm 1 k]

/-- A whole byte in the per-byte form. -/
theorem crcBits_eight (poly c x : Byte) : crcBits poly 8 c x = (crcShift poly)^[8] (c ^^^ x) := by
  rw [crcShift_iterate_xor, BitVec.ushiftRight_eq_zero le_rfl, BitVec.xor_zero]

/-- Settles O28: the register with the byte XORed in differs from the bit-serial one by the bits of the byte not
yet taken in, and after eight shifts there are none. -/
theorem crcPerByteFormIsEqual : Obligations.CrcPerByteFormIsEqual :=
  fun poly c x => crcBits_eight poly c x

/-- Settles O29: the CRC XORed into the register that holds it leaves 0, which every shift keeps. -/
theorem crcOfMessageWithItsCrcIsZero : Obligations.CrcOfMessageWithItsCrcIsZero := by
  intro poly init m
  have hzero : crcShift poly 0#8 = 0#8 := rfl
  rw [crcOf, List.foldl_append, List.foldl_cons, List.foldl_nil, ← crcOf, crcBits_eight, BitVec.xor_self]
  exact Function.iterate_fixed hzero 8

end Sys2Proof.Machine
end

section
/-! The commit of a byte (R130): the outcome of each check as a whole next state (R132 to R140). -/

namespace Sys2Proof.Machine

/-- The events of a length check (R134). -/
theorem setLength_trace (l : BitVec 5) (s : State) :
    (setLength l s).trace = s.trace ++ if s.elv then [] else [.length l] := by
  unfold setLength
  cases s.elv <;> simp

/-- Settles O21: the write of byte 0 leaves `bi = 1`, where the sync monitor looks at the byte written. -/
theorem syncByteIsChecked : Obligations.SyncByteIsChecked := by
  intro s b hbi
  rw [commit_of_index_lt b (by rw [hbi]; decide), hbi]
  refine ⟨fun hne => ?_, fun heq => ?_⟩
  · rw [checkCommit, if_pos ⟨rfl, by simpa using hne⟩]; rfl
  · rw [checkCommit, if_neg (by simpa using heq), if_neg (show ¬ 2 < (0#4 + 1#4).toNat by decide)]; rfl

/-- `s` after the write that left the buffer `f`, with the length read from it (R131, R134). -/
def State.measured (s : State) (f : Memory) : State :=
  { s with
    fb := f, bi := s.bi + 1#4, elv := true, el := payloadLen f,
    trace := s.trace ++ if s.elv then [] else [.length (payloadLen f)] }

theorem setLength_payloadLen (s : State) (f : Memory) :
    setLength (payloadLen f) { s with fb := f, bi := s.bi + 1#4 } = s.measured f := by
  rw [setLength_eq, setLength_trace]; rfl

/-- The commit of byte 2 or a later one: each check in its order, on the index before the write. -/
theorem commit_of_two_le {s : State} {b : Byte} {f : Memory} (h2 : 2 ≤ s.bi.toNat) (h15 : s.bi.toNat < 15)
    (hf : f = s.fb.set s.bi.toNat b) :
    commit b s = .next (
      if 12 < (payloadLen f).toNat then { s with fb := f, bi := s.bi + 1#4 }.desync .length
      else if (payloadLen f).toNat + 1 ≤ s.bi.toNat ∧
          xor8 f 1 (payloadLen f).toNat ≠ f.read ((payloadLen f).toNat + 1) then (s.measured f).desync .xor
      else if (payloadLen f).toNat + 2 ≤ s.bi.toNat then
        if crc8 s.cfg f 1 ((payloadLen f).toNat + 1) ≠ f.read ((payloadLen f).toNat + 2) then
          (s.measured f).desync .crc
        else frameComplete (s.measured f)
      else s.measured f) := by
  have hbi : (s.bi + 1#4).toNat = s.bi.toNat + 1 := toNat_add_one h15
  rw [commit_of_index_lt b h15, ← hf]
  rcases checkCommit_cases { s with fb := f, bi := s.bi + 1#4 } with ⟨h1, -, -⟩ | ⟨-, e⟩ | ⟨hle, -, -⟩
  · have : s.bi.toNat + 1 = 1 := hbi.symm.trans (congrArg BitVec.toNat h1)
    omega
  · rw [e, checkLength]
    simp only [setLength_payloadLen, State.measured, hbi, Nat.lt_succ_iff]
    rfl
  · simp only [hbi] at hle
    omega

/-- Settles O23: with `bi ≤ L` before the write, the index after it has not reached the XOR byte. -/
theorem lengthIsBounded : Obligations.LengthIsBounded := by
  intro s b f h2 h15 hf
  rw [commit_of_two_le h2 h15 hf]
  refine ⟨fun hlong => ?_, fun hlen hle => ?_⟩
  · rw [if_pos hlong]; rfl
  · rw [if_neg (by omega), if_neg (by omega), if_neg (by omega)]; rfl

/-- Settles O24: the XOR byte is in from the write at `L + 1` on, the CRC byte only after the next. -/
theorem xorChecksumIsChecked : Obligations.XorChecksumIsChecked := by
  intro s b f h2 h15 hf hlen hle
  rw [commit_of_two_le h2 h15 hf, if_neg (by omega)]
  refine ⟨fun hne => ?_, fun heq hlast => ?_⟩
  · rw [if_pos ⟨hle, hne⟩]; rfl
  · rw [if_neg (fun h => h.2 heq), if_neg (by omega)]; rfl

/-- Settles O25: the length and the XOR pass, and the CRC byte is in. -/
theorem crcMismatchDesynchronises : Obligations.CrcMismatchDesynchronises := by
  intro s b f h2 h15 hf hlen hle hxor hcrc
  rw [commit_of_two_le h2 h15 hf, if_neg (by omega), if_neg (fun h => h.2 hxor), if_pos hle, if_pos hcrc]; rfl

/-- Settles O26: every check passes, so the frame completes, with the publish that cannot fail. -/
theorem matchingFrameIsPublished : Obligations.MatchingFrameIsPublished := by
  intro s b f h2 h15 hf hlen hle hxor hcrc hpub
  rw [commit_of_two_le h2 h15 hf, if_neg (by omega), if_neg (fun h => h.2 hxor), if_pos hle,
    if_neg (not_not.mpr hcrc), frameComplete, publish_of_cannot_fail (s := s.measured f) _ hpub]; rfl

end Sys2Proof.Machine
end

section
/-! What a commit, a pulse and a command can store in the frame buffer and publish. The idea: what ends in a reset
says so by its state, and nothing else publishes. -/

namespace Sys2Proof.Machine

/-! ### What a commit can store and publish -/

/-- The operation that led from `s` to `t` published nothing. -/
def NoPublish (s t : State) : Prop := Event.publish ∈ t.trace → Event.publish ∈ s.trace

/-- The operation that led from `s` to `t` ended in a reset of the decoder (R141). If it published, the slot is
full. -/
structure ResetEffect (s t : State) : Prop where
  reset : t.decoderReset
  published : Event.publish ∈ t.trace → Event.publish ∈ s.trace ∨ t.mbReady = true

theorem ResetEffect.of_noPublish {s s' t : State} (h : ResetEffect s' t) (hn : NoPublish s s') : ResetEffect s t :=
  ⟨h.reset, fun hp => (h.published hp).imp_left hn⟩

theorem ResetEffect.desync (s : State) (cause : DesyncCause) : ResetEffect s (s.desync cause) :=
  ⟨s.desync_decoderReset cause, fun hp => .inl (by simpa using hp)⟩

theorem ResetEffect.frameComplete (s : State) : ResetEffect s (frameComplete s) := by
  refine ⟨State.daReset_decoderReset _, ?_⟩
  unfold Machine.frameComplete
  rcases publish_cases s.fb s with e | e | e <;> rw [e]
  · exact fun _ => .inr rfl
  · exact fun _ => .inr rfl
  · exact fun hp => .inl (by simpa using hp)

theorem NoPublish.setLength (l : BitVec 5) (s : State) : NoPublish s (setLength l s) := by
  intro hp
  rw [setLength_trace] at hp
  cases helv : s.elv <;> simpa [helv] using hp

/-- The checks of a commit end in a reset, or leave everything but the length as it was. -/
inductive CheckEffect (s t : State) : Prop where
  | kept : t = { s with elv := t.elv, el := t.el, trace := t.trace } → NoPublish s t → CheckEffect s t
  | reset : ResetEffect s t → CheckEffect s t

theorem CheckEffect.checkLength (s : State) : CheckEffect s (checkLength s) := by
  have hl : NoPublish s (setLength (payloadLen s.fb) s) := .setLength _ s
  rcases checkLength_cases s with ⟨-, e⟩ | ⟨-, ⟨-, -, e⟩ | ⟨-, -, ⟨-, e⟩ | ⟨-, e⟩⟩ | ⟨-, -, e⟩⟩ <;> rw [e]
  · exact .reset (.desync s _)
  · exact .reset ((ResetEffect.desync _ _).of_noPublish hl)
  · exact .reset ((ResetEffect.desync _ _).of_noPublish hl)
  · exact .reset ((ResetEffect.frameComplete _).of_noPublish hl)
  · exact .kept (setLength_eq _ s) hl

theorem CheckEffect.checkCommit (s : State) : CheckEffect s (checkCommit s) := by
  rcases checkCommit_cases s with ⟨-, -, e⟩ | ⟨-, e⟩ | ⟨-, -, e⟩ <;> rw [e]
  · exact .reset (.desync s _)
  · exact .checkLength s
  · exact .kept rfl id

/-- Settles O22: what resets leaves `bi = 0`, and the checks that reset nothing keep the write. -/
theorem commitWritesOneByte : Obligations.CommitWritesOneByte := by
  intro s t b hc hbi
  obtain ⟨-, ht⟩ := commit_eq_next.mp hc
  have effect := CheckEffect.checkCommit { s with fb := s.fb.set s.bi.toNat b, bi := s.bi + 1#4 }
  rw [← ht] at effect
  cases effect with
  | kept hkept =>
    rw [hkept]
    exact ⟨rfl, Memory.read_set_self .., fun k hk => Memory.read_set_other _ b hk, rfl⟩
  | reset h =>
    obtain ⟨-, -, -, hzero, -⟩ := h.reset
    exact absurd hzero hbi

/-! ### What a pulse can store and publish -/

theorem DemodOnly.trans {s t u : State} (h : DemodOnly s t) (h' : DemodOnly t u) : DemodOnly s u := by
  unfold DemodOnly at h h' ⊢
  rw [h', h]

/-- A pulse leaves the assembler alone, stores one byte at `bi`, or ends in a reset. Only the last can publish. -/
inductive PulseEffect (s t : State) : Prop where
  | demodulated : DemodOnly s t → NoPublish s t → PulseEffect s t
  | stored (b : Byte) : t.bi = s.bi + 1#4 → t.fb = s.fb.set s.bi.toNat b → NoPublish s t → PulseEffect s t
  | reset : ResetEffect s t → PulseEffect s t

theorem PulseEffect.of_demodOnly {s s' t : State} (h : PulseEffect s' t) (hd : DemodOnly s s')
    (hn : NoPublish s s') : PulseEffect s t := by
  cases h with
  | demodulated hd' hn' => exact .demodulated (hd.trans hd') (hn ∘ hn')
  | stored b hbi hfb hn' =>
    rw [hd] at hbi hfb
    exact .stored b hbi hfb (hn ∘ hn')
  | reset h => exact .reset (h.of_noPublish hn)

theorem PulseEffect.commit {b : Byte} {s t : State} (h : commit b s = .next t) : PulseEffect s t := by
  obtain ⟨-, rfl⟩ := commit_eq_next.mp h
  cases CheckEffect.checkCommit { s with fb := s.fb.set s.bi.toNat b, bi := s.bi + 1#4 } with
  | kept hkept hn => exact .stored b (by rw [hkept]) (by rw [hkept]) hn
  | reset h => exact .reset ⟨h.reset, h.published⟩

theorem PulseEffect.completeByte {s t : State} (h : completeByte s = .next t) : PulseEffect s t := by
  rcases completeByte_cases s with ⟨-, e⟩ | ⟨-, e⟩ <;> rw [e] at h
  · cases h; exact .reset (.desync s _)
  · exact (PulseEffect.commit h).of_demodOnly rfl (by simp [NoPublish])

theorem NoPublish.appendBit (b : Bool) (s : State) : NoPublish s (appendBit b s) := by
  cases b <;> simp [NoPublish]

theorem PulseEffect.pushBit {b : Bool} {s t : State} (h : pushBit b s = .next t) : PulseEffect s t := by
  have hn : NoPublish s (appendBit b s) := .appendBit b s
  rcases pushBit_cases b s with ⟨-, -, e⟩ | ⟨-, -, e⟩ | ⟨-, e⟩ <;> rw [e] at h
  · cases h; exact .demodulated rfl hn
  · refine (PulseEffect.completeByte h).of_demodOnly rfl fun hp => hn ?_
    simpa using hp
  · exact (PulseEffect.completeByte h).of_demodOnly rfl hn

theorem PulseEffect.pulse {cause : DesyncCause} {k : PulseClass} {s t : State} (h : pulse cause k s = .next t) :
    PulseEffect s t := by
  rcases pulse_cases cause k s with e | ⟨b, e⟩ | e | e <;> rw [e] at h
  · cases h; exact .demodulated rfl (by simp [NoPublish])
  · exact (PulseEffect.pushBit h).of_demodOnly rfl id
  · cases h; exact .demodulated rfl (by simp [NoPublish])
  · cases h; exact .reset (.desync s _)

/-- Settles O52: the three effects of a pulse. A rejected SAMPLE stores nothing, the worker's exit resets. -/
theorem sampleStoresOnlyAtTheByteIndex : Obligations.SampleStoresOnlyAtTheByteIndex := by
  intro d s t h
  cases CommandEffect.of_exec h with
  | reject => exact .inl ⟨rfl, rfl⟩
  | exit => exact .inr (.inl ⟨rfl, rfl⟩)
  | nodata hi => simp at hi
  | samplePulse _ _ hp =>
    cases PulseEffect.pulse hp with
    | demodulated hd => rw [hd]; exact .inl ⟨rfl, rfl⟩
    | stored b hbi hfb => exact .inr (.inr ⟨hbi, fun k hk => by rw [hfb]; exact Memory.read_set_other _ b hk⟩)
    | reset h =>
      obtain ⟨-, -, -, hbi, hfb, -⟩ := h.reset
      exact .inr (.inl ⟨hfb, hbi⟩)

/-! ### What a published frame is -/

/-- Of the commands only a SAMPLE publishes, by a pulse that fills the slot and resets the decoder. -/
theorem exec_publish {i : Instr} {s t : State} (htrace : s.trace = []) (h : exec i s = .next t)
    (hp : Event.publish ∈ t.trace) : t.mbReady = true ∧ t.decoderReset := by
  cases CommandEffect.of_exec h with
  | samplePulse _ _ hpulse =>
    cases PulseEffect.pulse hpulse with
    | demodulated _ hn | stored _ _ _ hn => simpa [htrace] using hn hp
    | reset h => exact ⟨(h.published hp).resolve_left (by simp [htrace]), h.reset⟩
  | _ => simp [htrace] at hp

/-- Settles O46: the slot is full after the publish, and by the invariants after the step (O44) its frame is
valid. -/
theorem publishedFramesAreValid : Obligations.PublishedFramesAreValid := by
  intro s t hinv hinbox ht hp
  have full : t.mbReady = true ∧ t.decoderReset := by
    rcases step_cases s with ⟨hnil, -⟩ | ⟨p, rest, -, ⟨-, e⟩ | ⟨i, -, e⟩⟩
    · exact absurd hnil hinbox
    · rw [e] at ht
      cases ht
      simp at hp
    · exact exec_publish (State.accept_trace ..) (e ▸ ht) hp
  obtain ⟨hready, hreset⟩ := full
  exact ⟨(hinv.step ht).mailbox.2 hready, hready, hreset⟩

end Sys2Proof.Machine
end

section
/-! The mailbox: the outcomes of PUBLISH (R160, R170), and each outcome of a consumer command (R162 to R164) by the
grounds that lead to it. -/

namespace Sys2Proof.Machine

/-! ### PUBLISH -/

/-- A publish that can fail is one draw, which is counted (R170). -/
theorem publish_of_can_fail {s : State} (f : Memory) (h : s.cfg.publishCanFail = true) :
    publish f s =
      if Config.freePublishFails s.cfg.instanceNo s.drawCount then
        ({ s with drawCount := s.drawCount + 1 }).emit .publishDropped
      else deliver f { s with drawCount := s.drawCount + 1 } :=
  if_pos h

/-- Settles O30: the reset of `frameComplete` writes the decoder alone, whatever the publish before it did. -/
theorem publishOutcomeIsAFreeDraw : Obligations.PublishOutcomeIsAFreeDraw := by
  refine fun s => ⟨fun hcannot => ?_, fun hcan => ?_⟩
  · rw [frameComplete, publish_of_cannot_fail _ hcannot]; rfl
  · rw [frameComplete, publish_of_can_fail _ hcan, apply_ite State.daReset]; rfl

/-! ### The consumer commands -/

section
variable {s : State} {c : ConsumerNo}

/-- What fails the port test of a consumer command. -/
theorem onConsumerPort_eq_false :
    s.onConsumerPort c = false ↔ s.cfg.nConsumers ≤ c.toNat ∨ s.port ≠ .consumer c.toNat := by
  rw [← Bool.not_eq_true, onConsumerPort_eq_true, not_and_or, not_lt]

theorem exec_copy_of_rejected (h : s.cfg.mailboxMode ≠ .twoPhase ∨ s.cfg.nConsumers ≤ c.toNat ∨
    s.port ≠ .consumer c.toNat ∨ (s.consumer c).ph = .copied) : exec (.copy c) s = .next s.reject :=
  if_pos (by rwa [onConsumerPort_eq_false, or_assoc])

theorem exec_clear_of_rejected (h : s.cfg.mailboxMode ≠ .twoPhase ∨ s.cfg.nConsumers ≤ c.toNat ∨
    s.port ≠ .consumer c.toNat ∨ (s.consumer c).ph = .idle) : exec (.clear c) s = .next s.reject :=
  if_pos (by rwa [onConsumerPort_eq_false, or_assoc])

theorem exec_take_of_rejected (h : s.cfg.mailboxMode ≠ .atomicTake ∨ s.cfg.nConsumers ≤ c.toNat ∨
    s.port ≠ .consumer c.toNat) : exec (.take c) s = .next s.reject :=
  if_pos (by rwa [onConsumerPort_eq_false])

/-- An accepted COPY finds the slot empty or takes it. -/
theorem exec_copy_of_accepted (hmode : s.cfg.mailboxMode = .twoPhase) (hport : s.onConsumerPort c = true)
    (hidle : (s.consumer c).ph = .idle) : exec (.copy c) s =
      if s.mbReady = false then .next ((s.respond Response.nodata).emit .nodata)
      else .next (((s.setConsumer c ⟨.copied, s.mbFrame⟩).respond Response.ok).emit .copy) :=
  if_neg (by simp [hmode, hport, hidle])

theorem exec_clear_of_accepted (hmode : s.cfg.mailboxMode = .twoPhase) (hport : s.onConsumerPort c = true)
    (hcopied : (s.consumer c).ph = .copied) : exec (.clear c) s =
      .next (((s.clearMailbox.setConsumer c ⟨.idle, (s.consumer c).cb⟩).respond
        (Response.ofFrame (s.consumer c).cb)).emit .clear) :=
  if_neg (by simp [hmode, hport, hcopied])

/-- An accepted TAKE finds the slot empty or takes it. -/
theorem exec_take_of_accepted (hmode : s.cfg.mailboxMode = .atomicTake) (hport : s.onConsumerPort c = true) :
    exec (.take c) s =
      if s.mbReady = false then .next ((s.respond Response.nodata).emit .nodata)
      else .next ((s.clearMailbox.respond (Response.ofFrame s.mbFrame)).emit .take) :=
  if_neg (by simp [hmode, hport])

end

/-- Settles O31: the grounds of rejection, and the two outcomes of an accepted COPY. -/
theorem copyTakesTheSlot : Obligations.CopyTakesTheSlot := by
  refine fun s c => ⟨exec_copy_of_rejected, fun hmode hc hport hidle => ?_⟩
  rw [exec_copy_of_accepted hmode (onConsumerPort_eq_true.mpr ⟨hc, hport⟩) hidle]
  refine ⟨fun hempty => if_pos hempty, fun hready => ⟨_, if_neg (by simp [hready]), ?_, fun d hd => ?_, rfl⟩⟩
  · simp
  · simp [State.setConsumer_consumer_other _ _ hd]

/-- Settles O32: the grounds of rejection, and the one outcome of an accepted CLEAR. -/
theorem clearReturnsTheCopy : Obligations.ClearReturnsTheCopy := by
  refine fun s c => ⟨exec_clear_of_rejected, fun hmode hc hport hcopied => ?_⟩
  have honport := onConsumerPort_eq_true.mpr ⟨hc, hport⟩
  refine ⟨_, exec_clear_of_accepted hmode honport hcopied, ?_, fun d hd => ?_, rfl⟩
  · simp
  · simp [State.setConsumer_consumer_other _ _ hd]

/-- Settles O33: the grounds of rejection, and the two outcomes of an accepted TAKE. -/
theorem takeReturnsTheSlot : Obligations.TakeReturnsTheSlot := by
  refine fun s c => ⟨exec_take_of_rejected, fun hmode hc hport => ?_⟩
  rw [exec_take_of_accepted hmode (onConsumerPort_eq_true.mpr ⟨hc, hport⟩)]
  exact ⟨fun hempty => if_pos hempty, fun hready => if_neg (by simp [hready])⟩

/-- Settles O34: `L <= 12` in a valid frame, so `L + 1` fits the 4-bit field. -/
theorem lengthReturnedIsOneToThirteen : Obligations.LengthReturnedIsOneToThirteen := by
  rintro cfg f ⟨-, hlen, -⟩
  replace hlen : (payloadLen f).toNat ≤ 12 := hlen
  have fits : (Response.ofFrame f).len.toNat = (payloadLen f).toNat + 1 :=
    BitVec.toNat_ofNat .. |>.trans (Nat.mod_eq_of_lt (by omega))
  omega

/-- Settles O35: the publish fills the slot and leaves the consumers alone; the CLEAR then empties the slot and
answers with the copy taken before. -/
theorem framePublishedInTheGapIsLost : Obligations.FramePublishedInTheGapIsLost := by
  intro s t c f hpub hmode hc hport hcopied h
  rw [publish_of_cannot_fail f hpub,
    exec_clear_of_accepted (s := deliver f s) hmode (onConsumerPort_eq_true.mpr ⟨hc, hport⟩) hcopied] at h
  cases h
  refine ⟨⟨_, rfl⟩, rfl, rfl, fun d => ?_⟩
  have kept (e : ConsumerNo) : (deliver f s).consumer e = s.consumer e := rfl
  by_cases hd : d = c
  · simp [hd, kept]
  · simp [State.setConsumer_consumer_other _ _ hd, kept]

end Sys2Proof.Machine
end

section
/-! Consumes as runs of issued commands: COPY and CLEAR of consumers that share one slot (R168), and the simulation
of an `ATOMIC_TAKE` block by its `TWO_PHASE` twin (R169). The idea of the simulation: no command but COPY, CLEAR
and TAKE reads what tells the twins apart once the trace of the command before is gone, so each commutes with the
map from a block to its twin; a TAKE is matched by a COPY and a CLEAR. -/

namespace Sys2Proof.Machine

/-! ### Issued commands -/

theorem issue_of_decode_none {p : Presented} (s : State) (h : decode p.word = none) :
    issue p s = .next (s.accept p s.inbox).reject :=
  step_of_decode_none (s := { s with inbox := p :: s.inbox }) rfl h

theorem issue_of_decode_some {p : Presented} {i : Instr} (s : State) (h : decode p.word = some i) :
    issue p s = exec i (s.accept p s.inbox) :=
  step_of_decode_some (s := { s with inbox := p :: s.inbox }) rfl h

/-- A command issued on the port it is legal on. -/
theorem issue_presented_eq (i : Instr) (s : State) :
    issue (presented i) s = exec i (s.accept (presented i) s.inbox) :=
  issue_of_decode_some s (everyCommandDecodesFromItsEncoding i)

/-- A consumer command is legal on the port of its consumer. -/
theorem onConsumerPort_accept {s : State} {i : Instr} {c : ConsumerNo} (hc : c.toNat < s.cfg.nConsumers)
    (hi : legalPort i = .consumer (consumerIndex c)) :
    (s.accept (presented i) s.inbox).onConsumerPort c = true :=
  onConsumerPort_eq_true.mpr ⟨hc, hi⟩

/-- The block after consumer `c`'s COPY of a full slot. -/
def State.afterCopy (s : State) (c : ConsumerNo) : State :=
  (((s.accept (presented (.copy c)) s.inbox).setConsumer c ⟨.copied, s.mbFrame⟩).respond Response.ok).emit .copy

/-- The block after consumer `c`'s CLEAR. -/
def State.afterClear (s : State) (c : ConsumerNo) : State :=
  (((s.accept (presented (.clear c)) s.inbox).clearMailbox.setConsumer c ⟨.idle, (s.consumer c).cb⟩).respond
    (Response.ofFrame (s.consumer c).cb)).emit .clear

section
variable {s : State} {c d : ConsumerNo}

@[simp] theorem State.afterCopy_cfg : (s.afterCopy c).cfg = s.cfg := rfl
@[simp] theorem State.afterCopy_mbReady : (s.afterCopy c).mbReady = s.mbReady := rfl
@[simp] theorem State.afterCopy_mbFrame : (s.afterCopy c).mbFrame = s.mbFrame := rfl
@[simp] theorem State.afterCopy_resp : (s.afterCopy c).resp = some Response.ok := rfl
@[simp] theorem State.afterCopy_consumer_self : (s.afterCopy c).consumer c = ⟨.copied, s.mbFrame⟩ := by
  simp [State.afterCopy]

theorem State.afterCopy_consumer_other (h : d ≠ c) : (s.afterCopy c).consumer d = s.consumer d := by
  simp [State.afterCopy, State.setConsumer_consumer_other _ _ h]

@[simp] theorem State.afterClear_cfg : (s.afterClear c).cfg = s.cfg := rfl
@[simp] theorem State.afterClear_resp :
    (s.afterClear c).resp = some (Response.ofFrame (s.consumer c).cb) := rfl
@[simp] theorem State.afterClear_consumer_self : (s.afterClear c).consumer c = ⟨.idle, (s.consumer c).cb⟩ := by
  simp [State.afterClear]

theorem State.afterClear_consumer_other (h : d ≠ c) : (s.afterClear c).consumer d = s.consumer d := by
  simp [State.afterClear, State.setConsumer_consumer_other _ _ h]

theorem issue_copy (hmode : s.cfg.mailboxMode = .twoPhase) (hc : c.toNat < s.cfg.nConsumers)
    (hidle : (s.consumer c).ph = .idle) (hready : s.mbReady = true) :
    issue (presented (.copy c)) s = .next (s.afterCopy c) := by
  rw [issue_presented_eq, exec_copy_of_accepted (by exact hmode) (onConsumerPort_accept hc rfl) (by exact hidle)]
  exact if_neg (by simp [hready])

theorem issue_copy_empty (hmode : s.cfg.mailboxMode = .twoPhase) (hc : c.toNat < s.cfg.nConsumers)
    (hidle : (s.consumer c).ph = .idle) (hempty : s.mbReady = false) : issue (presented (.copy c)) s =
      .next (((s.accept (presented (.copy c)) s.inbox).respond Response.nodata).emit .nodata) := by
  rw [issue_presented_eq, exec_copy_of_accepted (by exact hmode) (onConsumerPort_accept hc rfl) (by exact hidle)]
  exact if_pos hempty

theorem issue_clear (hmode : s.cfg.mailboxMode = .twoPhase) (hc : c.toNat < s.cfg.nConsumers)
    (hcopied : (s.consumer c).ph = .copied) : issue (presented (.clear c)) s = .next (s.afterClear c) := by
  rw [issue_presented_eq]
  exact exec_clear_of_accepted hmode (onConsumerPort_accept hc rfl) hcopied

end

/-- Settles O36: the second COPY finds the slot still full, and the first CLEAR leaves the other copy alone. -/
theorem twoConsumersMayReturnOneFrame : Obligations.TwoConsumersMayReturnOneFrame := by
  intro s c d hne hmode hc hd hready hidleC hidleD
  have copyC := issue_copy hmode hc hidleC hready
  have copyD : issue (presented (.copy d)) (s.afterCopy c) = .next ((s.afterCopy c).afterCopy d) :=
    issue_copy hmode hd (by rwa [State.afterCopy_consumer_other hne.symm]) hready
  have holdsC : ((s.afterCopy c).afterCopy d).consumer c = ⟨.copied, s.mbFrame⟩ := by
    rw [State.afterCopy_consumer_other hne, State.afterCopy_consumer_self]
  have clearC := issue_clear (s := (s.afterCopy c).afterCopy d) hmode hc (by rw [holdsC])
  have holdsD : (((s.afterCopy c).afterCopy d).afterClear c).consumer d = ⟨.copied, s.mbFrame⟩ := by
    rw [State.afterClear_consumer_other hne.symm, State.afterCopy_consumer_self, State.afterCopy_mbFrame]
  refine ⟨_, _, ?_, issue_clear (s := ((s.afterCopy c).afterCopy d).afterClear c) hmode hd (by rw [holdsD]), ?_, ?_⟩
  · simp only [issueAll, copyC, copyD, clearC, andThen_next]
  · rw [State.afterClear_resp, holdsC]
  · rw [State.afterClear_resp, holdsD]

/-! ### The map from a block to its `TWO_PHASE` twin -/

/-- The block in mode `TWO_PHASE`, with consumer registers `k` in place of its own. -/
def State.twoPhase (s : State) (k : Vector ConsumerPort 16) : State :=
  { s with cfg := { s.cfg with mailboxMode := .twoPhase }, consumers := k }

/-- The same for the next state of a result. -/
def twoPhaseNext (k : Vector ConsumerPort 16) (r : Result) : Result := andThen r (fun t => .next (t.twoPhase k))

section
variable (k : Vector ConsumerPort 16) (s : State)

theorem State.twoPhase_fb : (s.twoPhase k).fb = s.fb := rfl

theorem publish_twoPhase (f : Memory) : publish f (s.twoPhase k) = (publish f s).twoPhase k := by
  by_cases h : s.cfg.publishCanFail = true
  · rw [publish_of_can_fail f h, publish_of_can_fail f (s := s.twoPhase k) h, apply_ite (State.twoPhase · k)]; rfl
  · rw [Bool.not_eq_true] at h
    rw [publish_of_cannot_fail f h, publish_of_cannot_fail f (s := s.twoPhase k) h]; rfl

theorem frameComplete_twoPhase : frameComplete (s.twoPhase k) = (frameComplete s).twoPhase k :=
  congrArg State.daReset (publish_twoPhase k s s.fb)

theorem setLength_twoPhase (l : BitVec 5) : setLength l (s.twoPhase k) = (setLength l s).twoPhase k := by
  unfold setLength
  cases h : s.elv <;> simp [State.twoPhase, State.emit, h]

theorem checkLength_twoPhase : checkLength (s.twoPhase k) = (checkLength s).twoPhase k := by
  simp only [checkLength, State.twoPhase_fb, setLength_twoPhase, frameComplete_twoPhase,
    apply_ite (State.twoPhase · k)]
  rfl

theorem checkCommit_twoPhase : checkCommit (s.twoPhase k) = (checkCommit s).twoPhase k := by
  unfold checkCommit
  rw [checkLength_twoPhase, apply_ite (State.twoPhase · k), apply_ite (State.twoPhase · k)]
  rfl

theorem commit_twoPhase (b : Byte) : commit b (s.twoPhase k) = twoPhaseNext k (commit b s) := by
  by_cases h : s.bi.toNat < frameCap
  · rw [commit_of_index_lt b h, commit_of_index_lt b (s := s.twoPhase k) h]
    exact congrArg _ (checkCommit_twoPhase k { s with fb := s.fb.set s.bi.toNat b, bi := s.bi + 1#4 })
  · rw [commit_of_index_ge b (not_lt.mp h), commit_of_index_ge b (s := s.twoPhase k) (not_lt.mp h)]; rfl

theorem completeByte_twoPhase : completeByte (s.twoPhase k) = twoPhaseNext k (completeByte s) := by
  unfold completeByte
  simp only [apply_ite (twoPhaseNext k), ← commit_twoPhase]
  rfl

theorem pushBit_twoPhase (b : Bool) : pushBit b (s.twoPhase k) = twoPhaseNext k (pushBit b s) := by
  simp only [pushBit_eq, apply_ite (twoPhaseNext k), ← completeByte_twoPhase]
  rfl

theorem pulse_twoPhase (cause : DesyncCause) (p : PulseClass) :
    pulse cause p (s.twoPhase k) = twoPhaseNext k (pulse cause p s) := by
  cases p with
  | noise | bad => rfl
  | full => exact pushBit_twoPhase k { s with hb := false } true
  | half =>
    simp only [pulse, halfBit, apply_ite (twoPhaseNext k), ← pushBit_twoPhase]
    rfl

theorem samplePort_twoPhase (cause : DesyncCause) (p : PulseClass) :
    samplePort cause p (s.twoPhase k) = twoPhaseNext k (samplePort cause p s) := by
  by_cases hport : s.port = .sample
  · cases hrun : s.run with
    | stopped =>
      rw [samplePort_of_stopped _ _ hport hrun, samplePort_of_stopped (s := s.twoPhase k) _ _ hport hrun]
      rfl
    | stopping =>
      rw [samplePort_of_stopping _ _ hport hrun, samplePort_of_stopping (s := s.twoPhase k) _ _ hport hrun]
      rfl
    | running =>
      rw [samplePort_of_running _ _ hport hrun, samplePort_of_running (s := s.twoPhase k) _ _ hport hrun]
      exact pulse_twoPhase k (s.respond Response.ok) cause p
  · rw [show samplePort cause p s = _ from if_pos hport, show samplePort cause p (s.twoPhase k) = _ from if_pos hport]
    rfl

/-- No command but the consumers' reads the mailbox mode or a consumer register, and none of these writes one. -/
theorem exec_twoPhase {i : Instr} (hi : ∀ c, i ≠ .copy c ∧ i ≠ .clear c ∧ i ≠ .take c) :
    exec i (s.twoPhase k) = twoPhaseNext k (exec i s) := by
  cases i with
  | sample d => exact samplePort_twoPhase k s _ _
  | tmo d => exact samplePort_twoPhase k s _ _
  | copy c => exact absurd rfl (hi c).1
  | clear c => exact absurd rfl (hi c).2.1
  | take c => exact absurd rfl (hi c).2.2
  | start =>
    simp only [exec, execStart, apply_ite (twoPhaseNext k)]
    rfl
  | stop =>
    simp only [exec, execStop, apply_ite (twoPhaseNext k)]
    rfl
  | setTimeout ms =>
    simp only [exec, execSetTimeout, apply_ite (twoPhaseNext k)]
    rfl

end

/-! ### The simulation -/

section
variable {s s' t : State}

theorem TwoPhaseTwin.mode_twin (h : TwoPhaseTwin s s') : s'.cfg.mailboxMode = .twoPhase := by rw [h.twin]

theorem TwoPhaseTwin.nConsumers_eq (h : TwoPhaseTwin s s') : s'.cfg.nConsumers = s.cfg.nConsumers := by rw [h.twin]

theorem TwoPhaseTwin.mbReady_eq (h : TwoPhaseTwin s s') : s'.mbReady = s.mbReady := by rw [h.twin]

theorem TwoPhaseTwin.mbFrame_eq (h : TwoPhaseTwin s s') : s'.mbFrame = s.mbFrame := by rw [h.twin]

/-- A command taken clears the trace, so the twin of the block is the block mapped. -/
theorem TwoPhaseTwin.accept_eq (h : TwoPhaseTwin s s') (p : Presented) :
    s'.accept p s'.inbox = (s.accept p s.inbox).twoPhase s'.consumers :=
  congrArg (fun u : State => u.accept p u.inbox) h.twin

/-- Twins stay twins when the block keeps its mode and the phases of its consumers, and its twin is mapped. -/
theorem TwoPhaseTwin.mapped (h : TwoPhaseTwin s s') (hcfg : t.cfg = s.cfg)
    (hph : ∀ c, (t.consumer c).ph = (s.consumer c).ph) : TwoPhaseTwin t (t.twoPhase s'.consumers) where
  mode := by rw [hcfg, h.mode]
  twin := rfl
  idle := fun c => ⟨(hph c).trans (h.idle c).1, (h.idle c).2⟩

section
variable {p : Presented}
  (hp : ∀ c, decode p.word ≠ some (.copy c) ∧ decode p.word ≠ some (.clear c) ∧ decode p.word ≠ some (.take c))
include hp

/-- A command that is none of the consumers', or a reserved word, is answered alike by the twin. -/
theorem TwoPhaseTwin.issue_eq (h : TwoPhaseTwin s s') : issue p s' = twoPhaseNext s'.consumers (issue p s) := by
  cases hd : decode p.word with
  | none => rw [issue_of_decode_none s hd, issue_of_decode_none s' hd, h.accept_eq]; rfl
  | some i =>
    rw [issue_of_decode_some s hd, issue_of_decode_some s' hd, h.accept_eq]
    exact exec_twoPhase _ _ fun c => by simpa [hd] using hp c

/-- Such a command leaves the configuration and the phases of the consumers alone. -/
theorem issue_keeps_phases (ht : issue p s = .next t) : t.cfg = s.cfg ∧ ∀ c, (t.consumer c).ph = (s.consumer c).ph := by
  cases hd : decode p.word with
  | none =>
    rw [issue_of_decode_none s hd] at ht
    cases ht
    exact ⟨rfl, fun _ => rfl⟩
  | some i =>
    rw [issue_of_decode_some s hd] at ht
    refine ⟨(exec_cfg_inbox ht).1, fun c => ?_⟩
    obtain ⟨hcopy, hclear, -⟩ := hp c
    rcases (consumerRegistersArePrivate i _ t c ht).1 with hkept | rfl | rfl
    · exact congrArg _ hkept
    · exact absurd hd hcopy
    · exact absurd hd hclear

end

end

/-! ### The consume of either block -/

section
variable {s s' t : State} {c : ConsumerNo}

theorem getDecodedData_atomicTake (gap : List Presented) (hmode : s.cfg.mailboxMode = .atomicTake)
    (hc : c.toNat < s.cfg.nConsumers) : getDecodedData c gap s =
      if s.mbReady = false then
        .next (((s.accept (presented (.take c)) s.inbox).respond Response.nodata).emit .nodata)
      else .next (((s.accept (presented (.take c)) s.inbox).clearMailbox.respond
        (Response.ofFrame s.mbFrame)).emit .take) := by
  simp only [getDecodedData, hmode, issue_presented_eq]
  exact exec_take_of_accepted hmode (onConsumerPort_accept hc rfl)

/-- With `TWO_PHASE` and an empty slot the COPY ends the consume: no data. -/
theorem getDecodedData_twoPhase_empty (gap : List Presented) (hmode : s.cfg.mailboxMode = .twoPhase)
    (hc : c.toNat < s.cfg.nConsumers) (hidle : (s.consumer c).ph = .idle) (hempty : s.mbReady = false) :
    getDecodedData c gap s =
      .next (((s.accept (presented (.copy c)) s.inbox).respond Response.nodata).emit .nodata) := by
  simp only [getDecodedData, hmode, issue_copy_empty hmode hc hidle hempty, andThen_next]
  exact if_neg (by simp [Response.nodata, Response.ok])

/-- With `TWO_PHASE` and a full slot the CLEAR follows the COPY. -/
theorem getDecodedData_twoPhase_ready (hmode : s.cfg.mailboxMode = .twoPhase) (hc : c.toNat < s.cfg.nConsumers)
    (hidle : (s.consumer c).ph = .idle) (hready : s.mbReady = true) :
    getDecodedData c [] s = .next ((s.afterCopy c).afterClear c) := by
  simp only [getDecodedData, hmode, issue_copy hmode hc hidle hready, andThen_next, State.afterCopy_resp, if_true,
    issueAll]
  exact issue_clear hmode hc (by simp)

/-- A COPY with its CLEAR answers with the slot and empties it; the copy stays in the consumer's buffer. -/
theorem State.afterClear_afterCopy (s : State) (c : ConsumerNo) : (s.afterCopy c).afterClear c = { s with
    mbReady := false, mbFrame := [], consumers := (s.setConsumer c ⟨.idle, s.mbFrame⟩).consumers,
    port := .consumer (consumerIndex c), resp := some (Response.ofFrame s.mbFrame), trace := [.clear] } := by
  rw [State.afterClear, State.afterCopy_consumer_self]
  simp [State.afterCopy, State.emit, State.respond, State.setConsumer, State.clearMailbox, State.accept, presented,
    legalPort]

theorem State.afterClear_afterCopy_ph (hidle : ∀ d, (s.consumer d).ph = .idle) (d : ConsumerNo) :
    (((s.afterCopy c).afterClear c).consumer d).ph = .idle := by
  by_cases hd : d = c
  · rw [hd, State.afterClear_consumer_self]
  · rw [State.afterClear_consumer_other hd, State.afterCopy_consumer_other hd, hidle]

/-- An accepted TAKE of a full slot leaves the block a twin of its twin after COPY and CLEAR. -/
theorem TwoPhaseTwin.take_copy_clear (h : TwoPhaseTwin s s') : TwoPhaseTwin
    (((s.accept (presented (.take c)) s.inbox).clearMailbox.respond (Response.ofFrame s.mbFrame)).emit .take)
    ((s'.afterCopy c).afterClear c) where
  mode := h.mode
  twin := by
    obtain ⟨k, tr, rfl⟩ : ∃ k tr, s' =
        { s with cfg := { s.cfg with mailboxMode := .twoPhase }, consumers := k, trace := tr } := ⟨_, _, h.twin⟩
    rw [State.afterClear_afterCopy]
    rfl
  idle := fun d => ⟨(h.idle d).1, State.afterClear_afterCopy_ph (fun e => (h.idle e).2) d⟩

/-- A consume with nothing in its gap is answered alike by the twin. -/
theorem TwoPhaseTwin.getDecodedData (h : TwoPhaseTwin s s') (hc : c.toNat < s.cfg.nConsumers)
    (ht : getDecodedData c [] s = .next t) :
    ∃ t', getDecodedData c [] s' = .next t' ∧ t'.resp = t.resp ∧ TwoPhaseTwin t t' := by
  have hc' : c.toNat < s'.cfg.nConsumers := by rwa [h.nConsumers_eq]
  rw [getDecodedData_atomicTake [] h.mode hc] at ht
  cases hready : s.mbReady with
  | false =>
    rw [if_pos hready] at ht
    cases ht
    refine ⟨_, getDecodedData_twoPhase_empty [] h.mode_twin hc' (h.idle c).2 (h.mbReady_eq.trans hready), rfl, ?_⟩
    rw [h.accept_eq]
    exact h.mapped rfl fun _ => rfl
  | true =>
    rw [if_neg (by simp [hready])] at ht
    cases ht
    refine ⟨_, getDecodedData_twoPhase_ready h.mode_twin hc' (h.idle c).2 (h.mbReady_eq.trans hready), ?_,
      h.take_copy_clear⟩
    rw [State.afterClear_resp, State.afterCopy_consumer_self, h.mbFrame_eq]
    rfl

end

/-- Settles O37: a consume of the block is matched by one of its twin, and every other command commutes with the map
to the twin. -/
theorem atomicTakeIsATwoPhaseRun : Obligations.AtomicTakeIsATwoPhaseRun := by
  refine fun s s' h => ⟨fun c t hc ht => h.getDecodedData hc ht, fun p t hp ht => ?_⟩
  obtain ⟨hcfg, hph⟩ := issue_keeps_phases hp ht
  exact ⟨t.twoPhase s'.consumers, by rw [h.issue_eq hp, ht]; rfl, rfl, h.mapped hcfg hph⟩

end Sys2Proof.Machine
end

section
/-! The control port (R190 to R193): each outcome of a control command by the grounds that lead to it, the worker's
exit that completes a stop, and host `start` (R196), whose reply is written out for each place it can end. -/

namespace Sys2Proof.Machine

/-! ### The control commands -/

section
variable {s : State}

theorem exec_start_of_not_stopped (h : s.run ≠ .stopped) : exec .start s = .next s.reject :=
  if_pos (.inr h)

theorem exec_start_of_stopped (hport : s.port = .control) (hrun : s.run = .stopped) : exec .start s =
    .next ((({ s.daReset.clearMailbox with run := .running }).respond Response.ok).emit .start) :=
  if_neg (by simp [hport, hrun])

theorem exec_stop_of_not_running (h : s.run ≠ .running) : exec .stop s = .next s.reject :=
  if_pos (.inr h)

theorem exec_stop_of_running (hport : s.port = .control) (hrun : s.run = .running) :
    exec .stop s = .next ((({ s with run := .stopping }).respond Response.ok).emit .stopReq) :=
  if_neg (by simp [hport, hrun])

/-- On its port SET_TIMEOUT is accepted whatever `run` is. -/
theorem exec_setTimeout_of_control (ms : Millis) (hport : s.port = .control) : exec (.setTimeout ms) s =
    if ms = 0#28 then .next ((s.respond Response.ok).emit .tmoIgnored)
    else .next ((({ s with tmoMs := ms }).respond Response.ok).emit .tmoSet) :=
  if_neg (not_not.mpr hport)

end

/-- Settles O38: the two branches of START on its port. -/
theorem startInitialisesAndRuns : Obligations.StartInitialisesAndRuns :=
  fun _ hport => ⟨exec_start_of_stopped hport, exec_start_of_not_stopped⟩

/-- Settles O39: the two branches of STOP on its port. -/
theorem stopRequestsTermination : Obligations.StopRequestsTermination :=
  fun _ hport => ⟨exec_stop_of_running hport, exec_stop_of_not_running⟩

/-- Settles O40: on its port SET_TIMEOUT tests only its operand. -/
theorem setTimeoutWritesNonZero : Obligations.SetTimeoutWritesNonZero := by
  intro s ms hport
  rw [exec_setTimeout_of_control ms hport]
  exact ⟨fun hzero => if_pos hzero, fun hne => if_neg hne⟩

/-- Settles O20: SAMPLE and TMO are the sample port, which in STOPPING looks at neither cause nor class. -/
theorem workerExitCompletesAStop : Obligations.WorkerExitCompletesAStop := by
  rintro s d i (rfl | rfl) hport hrun
  · exact samplePort_of_stopping .duration (classify s.cfg true d) hport hrun
  · exact samplePort_of_stopping .timeout (classify s.cfg false d) hport hrun

/-! ### START issued by the host -/

section
variable {s : State}

/-- START issued from a block that is not STOPPED: REJECTED, and no register changes. -/
theorem issue_start_of_not_stopped (h : s.run ≠ .stopped) : issue (presented .start) s =
    .next { s with port := .control, resp := some Response.rejected, trace := [.reject] } := by
  rw [issue_presented_eq, exec_start_of_not_stopped (by exact h)]; rfl

/-- START issued from a STOPPED block: decoder and mailbox at power-on, RUNNING. -/
theorem issue_start_of_stopped (h : s.run = .stopped) : issue (presented .start) s =
    .next { s.daReset.clearMailbox with
      run := .running, port := .control, resp := some Response.ok, trace := [.start] } := by
  rw [issue_presented_eq, exec_start_of_stopped rfl (by exact h)]; rfl

/-! ### Host `start` -/

variable {line : Nat} {w : Collaborators}

theorem hostStart_of_illegal_line (h : line = 0 ∨ s.cfg.pLineMax ≤ line) :
    hostStart line w s = ⟨[], some .configError, s⟩ :=
  if_pos (by omega)

variable (hpos : 0 < line) (hmax : line < s.cfg.pLineMax)
include hpos hmax

theorem hostStart_of_enable_failed (he : w.enableOk = false) :
    hostStart line w s = ⟨[.enableLine line], some .ioError, s⟩ := by
  simp [hostStart, hpos, hmax, he]

theorem hostStart_of_spawn_failed (he : w.enableOk = true) (hs : w.spawnOk = false) : hostStart line w s =
    ⟨[.enableLine line, .createWorker, .disableLine line], some .concurrencyError, s⟩ := by
  simp [hostStart, hpos, hmax, he, hs]

/-- With the line and the worker up, START is issued last, and its response decides the error. -/
theorem hostStart_of_start_issued {t : State} (he : w.enableOk = true) (hs : w.spawnOk = true)
    (ht : issue (presented .start) s = .next t) : hostStart line w s =
    ⟨[.enableLine line, .createWorker, .command .start],
      if t.wasRejected then some .concurrencyError else none, t⟩ := by
  simp [hostStart, hpos, hmax, he, hs, ht, afterOr]

end

/-- Settles O60: the reply at each failure, and the one START issued, accepted from STOPPED alone. -/
theorem hostStartFollowsItsContract : Obligations.HostStartFollowsItsContract := by
  refine fun s line w => ⟨hostStart_of_illegal_line, fun hpos hmax => ⟨hostStart_of_enable_failed hpos hmax,
    hostStart_of_spawn_failed hpos hmax, fun he hs => ⟨fun hrun => ?_, fun hrun => ?_⟩⟩⟩
  · have hstart := issue_start_of_stopped hrun
    rw [hostStart_of_start_issued hpos hmax he hs hstart]
    exact ⟨rfl, rfl, hstart, rfl⟩
  · rw [hostStart_of_start_issued hpos hmax he hs (issue_start_of_not_stopped hrun)]
    exact ⟨rfl, rfl⟩

end Sys2Proof.Machine
end

section
/-! Errors of commands (R210 to R217). A command that fails a check is REJECTED and only that; a commit always finds
its index in the buffer, so no command stops the block; and a command ends the frame in hand at most once, by a
desync or by a publish, the desync with the decoder reset and nothing else touched. -/

namespace Sys2Proof.Machine

/-! ### REJECTED commands -/

/-- A command on the sample port passes the checks of R217 or is REJECTED. -/
theorem samplePort_eq_reject_or (cause : DesyncCause) (k : PulseClass) (s : State) :
    samplePort cause k s = .next s.reject ∨ (s.port = .sample ∧ s.run ≠ .stopped) := by
  rcases samplePort_cases cause k s with ⟨-, e⟩ | ⟨hport, hrun, -⟩ | ⟨hport, hrun, -⟩
  · exact .inl e
  · exact .inr ⟨hport, by simp [hrun]⟩
  · exact .inr ⟨hport, by simp [hrun]⟩

/-- A command passes checks (2) to (4) of R217 or is REJECTED. -/
theorem exec_eq_reject_or_accepted (i : Instr) (s : State) : exec i s = .next s.reject ∨ accepted i s = true := by
  cases i with
  | sample d =>
    exact (samplePort_eq_reject_or .duration (classify s.cfg true d) s).imp_right fun ⟨hport, hrun⟩ => by
      simp [accepted, hport, hrun]
  | tmo d =>
    exact (samplePort_eq_reject_or .timeout (classify s.cfg false d) s).imp_right fun ⟨hport, hrun⟩ => by
      simp [accepted, hport, hrun]
  | copy c => exact (execCopy_cases c s).imp_right fun ⟨hmode, hport, hidle, _⟩ => by simp [accepted, *]
  | clear c => exact (execClear_cases c s).imp_right fun ⟨hmode, hport, hcopied, _⟩ => by simp [accepted, *]
  | take c => exact (execTake_cases c s).imp_right fun ⟨hmode, hport, _⟩ => by simp [accepted, *]
  | start => exact (execStart_cases s).imp_right fun ⟨hport, hrun, _⟩ => by simp [accepted, *]
  | stop => exact (execStop_cases s).imp_right fun ⟨hport, hrun, _⟩ => by simp [accepted, *]
  | setTimeout ms => exact (execSetTimeout_cases ms s).imp_right fun ⟨hport, _⟩ => by simp [accepted, *]

section
variable {s t : State}

/-- On its port, in a block that is not STOPPED, SAMPLE and TMO answer OK: the worker's exit and every pulse do. -/
theorem samplePort_resp {cause : DesyncCause} {k : PulseClass} (hport : s.port = .sample) (hrun : s.run ≠ .stopped)
    (h : samplePort cause k s = .next t) : t.resp = some Response.ok := by
  rcases samplePort_cases cause k s with ⟨hbad, -⟩ | ⟨-, -, e⟩ | ⟨-, -, e⟩
  · exact absurd hbad (by simp [hport, hrun])
  · cases e.symm.trans h; rfl
  · exact (ProducerFrame.pulse (e.symm.trans h)).resp

/-- The last command was answered, and not REJECTED. -/
def State.Answered (s : State) : Prop := ∃ r, s.resp = some r ∧ r.st ≠ .rejected

theorem State.Answered.resp_ne (h : s.Answered) : s.resp ≠ some Response.rejected := by
  obtain ⟨r, hr, hst⟩ := h
  rw [hr]
  rintro ⟨⟩
  exact hst rfl

theorem State.answered_of_ok (h : s.resp = some Response.ok) : s.Answered := ⟨_, h, nofun⟩

/-- A command that passes checks (2) to (4) of R217 is answered OK, NODATA or DATA. -/
theorem exec_answered_of_accepted {i : Instr} (ha : accepted i s = true) (h : exec i s = .next t) : t.Answered := by
  cases i <;> simp only [accepted, Bool.and_eq_true, decide_eq_true_iff] at ha
  case sample d =>
    obtain ⟨hport, hrun⟩ := ha
    exact State.answered_of_ok (samplePort_resp hport hrun h)
  case tmo d =>
    obtain ⟨hport, hrun⟩ := ha
    exact State.answered_of_ok (samplePort_resp hport hrun h)
  case copy c =>
    obtain ⟨⟨hport, hmode⟩, hidle⟩ := ha
    rw [exec_copy_of_accepted hmode hport hidle] at h
    split at h <;> cases h <;> exact ⟨_, rfl, nofun⟩
  case clear c =>
    obtain ⟨⟨hport, hmode⟩, hcopied⟩ := ha
    rw [exec_clear_of_accepted hmode hport hcopied] at h
    cases h; exact ⟨_, rfl, nofun⟩
  case take c =>
    obtain ⟨hport, hmode⟩ := ha
    rw [exec_take_of_accepted hmode hport] at h
    split at h <;> cases h <;> exact ⟨_, rfl, nofun⟩
  case start =>
    obtain ⟨hport, hrun⟩ := ha
    rw [exec_start_of_stopped hport hrun] at h
    cases h; exact State.answered_of_ok rfl
  case stop =>
    obtain ⟨hport, hrun⟩ := ha
    rw [exec_stop_of_running hport hrun] at h
    cases h; exact State.answered_of_ok rfl
  case setTimeout ms =>
    rw [exec_setTimeout_of_control ms ha] at h
    split at h <;> cases h <;> exact State.answered_of_ok rfl

end

/-- Settles O9: what is not REJECTED was accepted, and what is accepted is answered. -/
theorem rejectedExactlyWhenNotAccepted : Obligations.RejectedExactlyWhenNotAccepted := by
  refine fun i s => ⟨fun hno => ?_, fun ha t h => (exec_answered_of_accepted ha h).resp_ne⟩
  exact (exec_eq_reject_or_accepted i s).resolve_right (by simp [hno])

/-! ### No error stops the block -/

section
variable {s : State} (hbi : s.bi.toNat < frameCap)
include hbi

/-- A completed byte ends in a desync or in a commit, which faults only past the buffer (R131). -/
theorem completeByte_next : ∃ t, completeByte s = .next t := by
  rcases completeByte_cases s with ⟨-, e⟩ | ⟨-, e⟩
  · exact ⟨_, e⟩
  · exact ⟨_, e.trans (commit_of_index_lt _ hbi)⟩

theorem pushBit_next (b : Bool) : ∃ t, pushBit b s = .next t := by
  rcases pushBit_cases b s with ⟨-, -, e⟩ | ⟨-, -, e⟩ | ⟨-, e⟩ <;> rw [e]
  · exact ⟨_, rfl⟩
  · exact completeByte_next hbi
  · exact completeByte_next hbi

theorem pulse_next (cause : DesyncCause) (k : PulseClass) : ∃ t, pulse cause k s = .next t := by
  rcases pulse_cases cause k s with e | ⟨b, e⟩ | e | e <;> rw [e]
  · exact ⟨_, rfl⟩
  · exact pushBit_next (s := { s with hb := false }) hbi b
  · exact ⟨_, rfl⟩
  · exact ⟨_, rfl⟩

theorem samplePort_next (cause : DesyncCause) (k : PulseClass) : ∃ t, samplePort cause k s = .next t := by
  rcases samplePort_cases cause k s with ⟨-, e⟩ | ⟨-, -, e⟩ | ⟨-, -, e⟩ <;> rw [e]
  · exact ⟨_, rfl⟩
  · exact ⟨_, rfl⟩
  · exact pulse_next (s := s.respond Response.ok) hbi cause k

/-- Only SAMPLE and TMO can reach a commit; every outcome of another command is a next state. -/
theorem exec_next (i : Instr) : ∃ t, exec i s = .next t := by
  cases i with
  | sample d => exact samplePort_next hbi .duration (classify s.cfg true d)
  | tmo d => exact samplePort_next hbi .timeout (classify s.cfg false d)
  | copy c => rcases execCopy_cases c s with e | ⟨-, -, -, ⟨-, e⟩ | ⟨-, e⟩⟩ <;> exact ⟨_, e⟩
  | clear c => rcases execClear_cases c s with e | ⟨-, -, -, e⟩ <;> exact ⟨_, e⟩
  | take c => rcases execTake_cases c s with e | ⟨-, -, ⟨-, e⟩ | ⟨-, e⟩⟩ <;> exact ⟨_, e⟩
  | start => rcases execStart_cases s with e | ⟨-, -, e⟩ <;> exact ⟨_, e⟩
  | stop => rcases execStop_cases s with e | ⟨-, -, e⟩ <;> exact ⟨_, e⟩
  | setTimeout ms => rcases execSetTimeout_cases ms s with e | ⟨-, ⟨-, e⟩ | ⟨-, e⟩⟩ <;> exact ⟨_, e⟩

theorem step_next : ∃ t, step s = .next t := by
  rcases step_cases s with ⟨-, e⟩ | ⟨p, rest, -, ⟨-, e⟩ | ⟨i, -, e⟩⟩ <;> rw [e]
  · exact ⟨_, rfl⟩
  · exact ⟨_, rfl⟩
  · exact exec_next (s := s.accept p rest) hbi i

end

/-- Settles O45: between steps `bi ≤ 14` (R38, R144), so the byte index of a commit is in the buffer. -/
theorem noStepStopsTheBlock : Obligations.NoStepStopsTheBlock := by
  intro s hinv
  obtain ⟨hbi, -⟩ := hinv.assembler
  exact step_next (Nat.lt_succ_of_le hbi)

/-! ### How the frame in hand ends -/

/-- The events that end the frame in hand: a desync, or a publish, dropped or not (R140, R141, R170). -/
def Event.endsFrame : Event → Bool
  | .desync _ => true
  | .publish => true
  | .publishDropped => true
  | _ => false

/-- Of the events of the last step, those that ended a frame. -/
def State.frameEnds (s : State) : List Event := s.trace.filter Event.endsFrame

theorem State.mem_frameEnds {s : State} {e : Event} : e ∈ s.frameEnds ↔ e ∈ s.trace ∧ e.endsFrame = true :=
  List.mem_filter

/-- Every desync ends a frame. -/
theorem State.filter_isDesync_frameEnds (s : State) :
    s.frameEnds.filter Event.isDesync = s.trace.filter Event.isDesync := by
  rw [State.frameEnds, List.filter_filter]
  congr 1
  funext e
  cases e <;> rfl

theorem State.frameEnds_of_trace_nil {s : State} (h : s.trace = []) : s.frameEnds = [] := by
  rw [State.frameEnds, h]; rfl

section
variable {s t : State} {e : Event}

theorem State.frameEnds_of_ends (h : t.trace = s.trace ++ [e]) (he : e.endsFrame = true) :
    t.frameEnds = s.frameEnds ++ [e] := by
  rw [State.frameEnds, h, List.filter_append, List.filter_cons_of_pos he]; rfl

theorem State.frameEnds_of_goesOn (h : t.trace = s.trace ++ [e]) (he : e.endsFrame = false) :
    t.frameEnds = s.frameEnds := by
  simp [State.frameEnds, h, he]

end

@[simp] theorem frameEnds_setLength (l : BitVec 5) (s : State) : (setLength l s).frameEnds = s.frameEnds := by
  cases helv : s.elv <;> simp [State.frameEnds, setLength_trace, helv, Event.endsFrame]

@[simp] theorem frameEnds_appendBit (b : Bool) (s : State) : (appendBit b s).frameEnds = s.frameEnds :=
  State.frameEnds_of_goesOn (appendBit_trace s b) (by cases b <;> rfl)

@[simp] theorem frameEnds_synthParity (s : State) : (synthParity s).frameEnds = s.frameEnds :=
  State.frameEnds_of_goesOn (synthParity_trace s) rfl

/-- How the operation that led from `s` to `t` ended the frame in hand: not at all, by a publish, or by a desync,
which resets the decoder (R141). It ended it at most once (R216). -/
inductive FrameEnd (s t : State) : Prop where
  | goesOn : t.frameEnds = s.frameEnds → FrameEnd s t
  | published (e : Event) : e.isDesync = false → t.frameEnds = s.frameEnds ++ [e] → FrameEnd s t
  | desync (cause : DesyncCause) : t.decoderReset → t.frameEnds = s.frameEnds ++ [.desync cause] → FrameEnd s t

/-- The relation looks at the events alone in the state before. -/
theorem FrameEnd.of_frameEnds_eq {s s' t : State} (h : FrameEnd s' t) (e : s'.frameEnds = s.frameEnds) :
    FrameEnd s t := by
  cases h with
  | goesOn ht => exact .goesOn (ht.trans e)
  | published ev hev ht => exact .published ev hev (e ▸ ht)
  | desync cause hreset ht => exact .desync cause hreset (e ▸ ht)

theorem FrameEnd.of_desync (s : State) (cause : DesyncCause) : FrameEnd s (s.desync cause) :=
  .desync cause (s.desync_decoderReset cause) (State.frameEnds_of_ends (s.desync_trace cause) rfl)

theorem FrameEnd.frameComplete (s : State) : FrameEnd s (frameComplete s) := by
  unfold Machine.frameComplete
  rcases publish_cases s.fb s with e | e | e <;> rw [e]
  · exact .published .publish rfl (State.frameEnds_of_ends rfl rfl)
  · exact .published .publish rfl (State.frameEnds_of_ends rfl rfl)
  · exact .published .publishDropped rfl (State.frameEnds_of_ends rfl rfl)

theorem FrameEnd.checkLength (s : State) : FrameEnd s (checkLength s) := by
  have measured := frameEnds_setLength (payloadLen s.fb) s
  rcases checkLength_cases s with ⟨-, e⟩ | ⟨-, ⟨-, -, e⟩ | ⟨-, -, ⟨-, e⟩ | ⟨-, e⟩⟩ | ⟨-, -, e⟩⟩ <;> rw [e]
  · exact .of_desync s _
  · exact (FrameEnd.of_desync _ _).of_frameEnds_eq measured
  · exact (FrameEnd.of_desync _ _).of_frameEnds_eq measured
  · exact (FrameEnd.frameComplete _).of_frameEnds_eq measured
  · exact .goesOn measured

theorem FrameEnd.checkCommit (s : State) : FrameEnd s (checkCommit s) := by
  rcases checkCommit_cases s with ⟨-, -, e⟩ | ⟨-, e⟩ | ⟨-, -, e⟩ <;> rw [e]
  · exact .of_desync s _
  · exact .checkLength s
  · exact .goesOn rfl

theorem FrameEnd.commit {b : Byte} {s t : State} (h : commit b s = .next t) : FrameEnd s t := by
  obtain ⟨-, rfl⟩ := commit_eq_next.mp h
  exact (FrameEnd.checkCommit _).of_frameEnds_eq rfl

theorem FrameEnd.completeByte {s t : State} (h : completeByte s = .next t) : FrameEnd s t := by
  rcases completeByte_cases s with ⟨-, e⟩ | ⟨-, e⟩ <;> rw [e] at h
  · cases h; exact .of_desync s _
  · exact (FrameEnd.commit h).of_frameEnds_eq (State.frameEnds_of_goesOn rfl rfl)

theorem FrameEnd.pushBit {b : Bool} {s t : State} (h : pushBit b s = .next t) : FrameEnd s t := by
  rcases pushBit_cases b s with ⟨-, -, e⟩ | ⟨-, -, e⟩ | ⟨-, e⟩ <;> rw [e] at h
  · cases h; exact .goesOn (by simp)
  · exact (FrameEnd.completeByte h).of_frameEnds_eq (by simp)
  · exact (FrameEnd.completeByte h).of_frameEnds_eq (by simp)

theorem FrameEnd.pulse {cause : DesyncCause} {k : PulseClass} {s t : State} (h : pulse cause k s = .next t) :
    FrameEnd s t := by
  rcases pulse_cases cause k s with e | ⟨b, e⟩ | e | e <;> rw [e] at h
  · cases h; exact .goesOn (State.frameEnds_of_goesOn rfl rfl)
  · exact (FrameEnd.pushBit h).of_frameEnds_eq rfl
  · cases h; exact .goesOn (State.frameEnds_of_goesOn rfl rfl)
  · cases h; exact .of_desync s cause

/-- Of what a command can do only the pulse of a RUNNING block ends a frame. -/
theorem exec_frameEnds_or_pulse {i : Instr} {s t : State} (h : exec i s = .next t) :
    t.frameEnds = s.frameEnds ∨ ∃ cause k, pulse cause k (s.respond Response.ok) = .next t := by
  cases CommandEffect.of_exec h with
  | samplePulse _ _ hp => exact .inr ⟨_, _, hp⟩
  | timeout => exact .inr ⟨.timeout, .bad, rfl⟩
  | _ => exact .inl (by simp [State.frameEnds, Event.endsFrame])

theorem FrameEnd.exec {i : Instr} {s t : State} (h : exec i s = .next t) : FrameEnd s t := by
  rcases exec_frameEnds_or_pulse h with hsame | ⟨cause, k, hp⟩
  · exact .goesOn hsame
  · exact (FrameEnd.pulse hp).of_frameEnds_eq rfl

/-- Settles O54: of a command's events at most one ends a frame. -/
theorem atMostOneDesyncPerCommand : Obligations.AtMostOneDesyncPerCommand := by
  intro i s t htrace h
  have hnone := State.frameEnds_of_trace_nil htrace
  rw [← State.filter_isDesync_frameEnds]
  cases FrameEnd.exec h with
  | goesOn e => simp [e, hnone]
  | published ev hev e => simp [e, hnone, hev]
  | desync cause _ e =>
    rw [e, hnone]
    refine ⟨le_rfl, ?_⟩
    have only {ev : Event} (hends : ev.endsFrame = true) (hev : ev ∈ t.trace) : ev = .desync cause := by
      simpa [e, hnone] using State.mem_frameEnds.mpr ⟨hev, hends⟩
    rintro (hp | hp)
    · cases only rfl hp
    · cases only rfl hp

/-- Settles O53: the desync is the pulse's only end of a frame, so the pulse reset the decoder and published
nothing; the rest is what no pulse writes. -/
theorem desyncTouchesOnlyTheDecoder : Obligations.DesyncTouchesOnlyTheDecoder := by
  intro i cause s t htrace h hd
  have hnone := State.frameEnds_of_trace_nil htrace
  have hends : Event.desync cause ∈ t.frameEnds := State.mem_frameEnds.mpr ⟨hd, rfl⟩
  rcases exec_frameEnds_or_pulse h with e | ⟨c, k, hp⟩
  · simp [e, hnone] at hends
  have frame := ProducerFrame.pulse hp
  have hbefore : (s.respond Response.ok).frameEnds = [] := hnone
  cases FrameEnd.pulse hp with
  | goesOn e => simp [e, hbefore] at hends
  | published ev hev e =>
    obtain rfl : Event.desync cause = ev := by simpa [e, hbefore] using hends
    cases hev
  | desync c' hreset e =>
    have unpublished : Event.publish ∉ t.trace := fun hpub => by
      simpa [e, hbefore] using State.mem_frameEnds.mpr ⟨hpub, rfl⟩
    obtain ⟨hready, hframe⟩ := (SlotKeptOrPublished.pulse hp).resolve_right fun hpub => unpublished hpub.2
    exact ⟨frame.resp, hready, hframe, frame.run, frame.tmoMs, frame.consumers, hreset⟩

end Sys2Proof.Machine
end

section
/-! The block after power-on (R242): it waits while no command is presented, and of the commands presented on their
ports START and SET_TIMEOUT alone have an effect. The idea: in a STOPPED block with IDLE consumers the only other
command that passes the checks of R217 is the consume command of the mailbox mode, which finds the slot empty. -/

namespace Sys2Proof.Machine

/-- Settles O8: of the outcomes of a step only the wait has no command presented. -/
theorem stepWaitsWithNoCommand : Obligations.StepWaitsWithNoCommand := by
  intro s hin
  rcases step_cases s with ⟨-, e⟩ | ⟨p, rest, hcons, -⟩
  · exact e
  · cases hin.symm.trans hcons

/-- The command a consumer of a block with this mailbox mode starts a consume with: COPY (R162) or TAKE (R164). -/
inductive ConsumesIn (m : MailboxMode) : Instr → Prop where
  | copy (c : ConsumerNo) : m = .twoPhase → ConsumesIn m (.copy c)
  | take (c : ConsumerNo) : m = .atomicTake → ConsumesIn m (.take c)

section
variable {s : State} {i : Instr} (hidle : ∀ c, (s.consumer c).ph = .idle)
include hidle

/-- STOPPED rules out the sample port and STOP, IDLE rules out CLEAR, and the mode rules out the other consume. -/
theorem ConsumesIn.of_accepted (hrun : s.run = .stopped) (hstart : i ≠ .start) (htmo : ∀ ms, i ≠ .setTimeout ms)
    (ha : accepted i s = true) : ConsumesIn s.cfg.mailboxMode i := by
  cases i <;> simp only [accepted, Bool.and_eq_true, decide_eq_true_iff] at ha
  case sample d => exact absurd hrun ha.2
  case tmo d => exact absurd hrun ha.2
  case copy c =>
    obtain ⟨⟨-, hmode⟩, -⟩ := ha
    exact .copy c hmode
  case clear c => cases (hidle c).symm.trans ha.2
  case take c => exact .take c ha.2
  case start => exact absurd rfl hstart
  case stop => cases hrun.symm.trans ha.2
  case setTimeout ms => exact absurd rfl (htmo ms)

theorem exec_of_not_consumesIn (hrun : s.run = .stopped) (hstart : i ≠ .start) (htmo : ∀ ms, i ≠ .setTimeout ms)
    (hno : ¬ ConsumesIn s.cfg.mailboxMode i) : exec i s = .next s.reject :=
  (exec_eq_reject_or_accepted i s).resolve_right fun ha => hno (.of_accepted hidle hrun hstart htmo ha)

/-- A consume that finds the slot empty is answered NODATA, and nothing else. -/
theorem exec_of_consumesIn (hempty : s.mbReady = false) (hwf : i.wf s.cfg.nConsumers = true)
    (hport : s.port = legalPort i) (hc : ConsumesIn s.cfg.mailboxMode i) :
    exec i s = .next ((s.respond Response.nodata).emit .nodata) := by
  cases hc with
  | copy c hmode =>
    rw [exec_copy_of_accepted hmode (onConsumerPort_eq_true.mpr ⟨of_decide_eq_true hwf, hport⟩) (hidle c)]
    exact if_pos hempty
  | take c hmode =>
    rw [exec_take_of_accepted hmode (onConsumerPort_eq_true.mpr ⟨of_decide_eq_true hwf, hport⟩)]
    exact if_pos hempty

end

/-- At power-on the consumers are IDLE, and taking a command leaves them so. -/
theorem State.powerOn_accept_idle (cfg : Config) (p : Presented) (rest : List Presented) (c : ConsumerNo) :
    (((State.powerOn cfg).accept p rest).consumer c).ph = .idle :=
  congrArg ConsumerPort.ph (State.powerOn_consumer cfg c)

/-- Settles O42: the consume command of the mode finds the slot empty, every other command fails a check. -/
theorem onlyStartAndTimeoutActAfterPowerOn : Obligations.OnlyStartAndTimeoutActAfterPowerOn := by
  rintro cfg i s t rfl hwf hstart htmo h
  rw [issue_presented_eq] at h
  have hidle := State.powerOn_accept_idle cfg (presented i) []
  by_cases hc : ConsumesIn cfg.mailboxMode i
  · cases (exec_of_consumesIn hidle rfl hwf rfl hc).symm.trans h
    refine ⟨rfl, fun _ _ _ => rfl, fun _ _ _ => rfl, fun hcopy htake => ?_⟩
    cases hc with
    | copy c hmode => cases hmode.symm.trans (hcopy c rfl)
    | take c hmode => cases hmode.symm.trans (htake c rfl)
  · cases (exec_of_not_consumesIn hidle rfl hstart htmo hc).symm.trans h
    refine ⟨rfl, fun c hi hmode => ?_, fun c hi hmode => ?_, fun _ _ => rfl⟩
    · exact absurd (hi ▸ .copy c hmode) hc
    · exact absurd (hi ▸ .take c hmode) hc

end Sys2Proof.Machine
end

section
/-! The decoding vectors of section 2.1 of the spec. The idea: the words that decode are checked on the side of the
encoder, the reserved ones by the reserved form of R76 that they have. -/

namespace Sys2Proof

theorem decode_of_encode_eq {i : Instr} {w : Word} (h : encode i = w) : decode w = some i :=
  h ▸ everyCommandDecodesFromItsEncoding i

/-- Settles O5: nine words are the encodings of their commands; of the reserved ones, one has a bit of format S's
reserved field set (bit 24), one of format K's (bit 4), one of format Z's (bit 0), and one has the operation 0xB. -/
theorem decodingTableOfTheSpec : Obligations.DecodingTableOfTheSpec := by
  have reservedS : decode 0x19000000#32 = none := (decode_eq_none_iff_fields _).mpr (.inr (.inl (by decide)))
  have reservedK : decode 0x20000010#32 = none :=
    (decode_eq_none_iff_fields _).mpr (.inr (.inr (.inl (by decide))))
  have reservedZ : decode 0x80000001#32 = none :=
    (decode_eq_none_iff_fields _).mpr (.inr (.inr (.inr (by decide))))
  have reservedOp : decode 0xB0000000#32 = none := (decode_eq_none_iff_fields _).mpr (.inl (by decide))
  exact ⟨decode_of_encode_eq rfl, decode_of_encode_eq rfl, decode_of_encode_eq rfl, decode_of_encode_eq rfl,
    decode_of_encode_eq rfl, decode_of_encode_eq rfl, decode_of_encode_eq rfl, decode_of_encode_eq rfl,
    decode_of_encode_eq rfl, reservedS, reservedK, reservedZ, reservedOp⟩

end Sys2Proof
end
